-- ==== Sys2Proof/Word.lean ====
section
/-! DEFINITION. The widths of the block's values (spec 00_scope.md R5, R6): every value is an unsigned
bit vector, bit 0 the least significant, and no value is signed. -/

namespace Sys2Proof

/-- A 32-bit value of the CRC: the register, the constants, the result (R5 `WIDTH` = 32). -/
abbrev Crc := BitVec 32

/-- One message byte, as it stands on the `data` port: bit `i` has weight 2^i (R5 `DATA_W` = 8, R22). -/
abbrev Byte := BitVec 8

/-- The input word `w[10:0]` of one step (R5 `WORD_W` = 11, R30 format `W11`). -/
abbrev InputWord := BitVec 11

/-- A message: the finite byte sequence a CRC is computed over, of any length (R2, R24, R92). -/
abbrev Message := List Byte

end Sys2Proof
end

