-- ==== Sys2Proof/Syntax.lean ====
section
/-! DEFINITION. The command set (spec 30_encoding.md R33): one constructor per row of
spec/opcode_table.json, in the table's order. The only operand a word carries is the byte `d` (R32);
the register `crc` is implicit and don't-care bits are not remembered (R34). -/

namespace Sys2Proof

/-- The five commands of the input word. -/
inductive Instr where
  /-- RESET (R55). -/
  | reset
  /-- IDLE (R56). -/
  | idle
  /-- UPDATE d (R57): absorb one message byte. -/
  | update (d : Byte)
  /-- INIT (R58): seed. -/
  | init
  /-- START d (R59): seed, then absorb the first byte. -/
  | start (d : Byte)
  deriving DecidableEq, Repr

end Sys2Proof
end

