-- ==== Sys2Proof/WellFormed.lean ====
section
/-! DEFINITION. What is well formed: every command (spec 30_encoding.md R34: nothing is reserved or
illegal), and the lines of the assembler notation (R36, R37), whose operands are written as numbers
or characters and so have ranges to check. -/

namespace Sys2Proof

/-- Every command is well formed: its one operand is a byte by its type, and R34 leaves no encoding
reserved, illegal or a hint. -/
def Instr.wellFormed (i : Instr) : Bool :=
  match i with
  | .reset => true
  | .idle => true
  | .update _ => true
  | .init => true
  | .start _ => true

/-- An operand of the notation (R36): two hex digits, or a character standing for its ASCII code. -/
inductive Operand where
  /-- `0xNN`. -/
  | hex (n : Nat)
  /-- `'c'`. -/
  | chr (c : Char)
  deriving DecidableEq, Repr

/-- One line of the notation (R36), the pseudo-commands of R37 among them. -/
inductive Line where
  | reset
  | idle
  | init
  | update (o : Operand)
  | start (o : Operand)
  /-- `.word n`: a word written as its number, which may be non-canonical. -/
  | word (n : Nat)
  /-- `MSG b0, ..., bn-1`. -/
  | msg (bs : List Operand)
  /-- `MSGI b0, ..., bn-1`, the split form. -/
  | msgi (bs : List Operand)
  /-- `CHUNKCRC t0 t1 t2 t3, p0, ..., pk-1`. -/
  | chunkcrc (t0 t1 t2 t3 : Operand) (payload : List Operand)
  /-- `NOP`. -/
  | nop
  deriving DecidableEq, Repr

/-- The operand's range (R36): `0x00 .. 0xFF`, or a character with code `0x20 .. 0x7E`. -/
def Operand.wellFormed (o : Operand) : Bool :=
  match o with
  | .hex n => decide (n ≤ 0xFF)
  | .chr c => decide (0x20 ≤ c.toNat) && decide (c.toNat ≤ 0x7E)

/-- Every operand in range, and the number of a `.word` line an 11-bit word. -/
def Line.wellFormed (l : Line) : Bool :=
  match l with
  | .reset => true
  | .idle => true
  | .init => true
  | .update o => o.wellFormed
  | .start o => o.wellFormed
  | .word n => decide (n < 2048)
  | .msg bs => bs.all Operand.wellFormed
  | .msgi bs => bs.all Operand.wellFormed
  | .chunkcrc t0 t1 t2 t3 p => (t0 :: t1 :: t2 :: t3 :: p).all Operand.wellFormed
  | .nop => true

end Sys2Proof
end

