-- ==== Sys2Proof/Decode.lean ====
section
/-! DEFINITION. The input word `W11` and its decode (spec 30_encoding.md R30, R31), the command map
(R33), the encoder (canonical words, R34, R36) and the assembler notation's expansion (R36, R37). -/

namespace Sys2Proof

/-! ### Fields of the input word (R30) -/

/-- `rst = w[10]`. -/
def InputWord.rst (w : InputWord) : Bool := w.getLsbD 10

/-- `init = w[9]`. -/
def InputWord.init (w : InputWord) : Bool := w.getLsbD 9

/-- `valid = w[8]`. -/
def InputWord.valid (w : InputWord) : Bool := w.getLsbD 8

/-- `op = {init, valid} = w[9:8]`. -/
def InputWord.op (w : InputWord) : BitVec 2 := w.extractLsb' 8 2

/-- `data = w[7:0]`, used as it stands (R32). -/
def InputWord.data (w : InputWord) : Byte := w.extractLsb' 0 8

/-- The word `{rst, init, valid, data}`. -/
def InputWord.ofFields (rst init valid : Bool) (data : Byte) : InputWord :=
  BitVec.ofBool rst ++ BitVec.ofBool init ++ BitVec.ofBool valid ++ data

/-! ### Decode (R31) -/

/-- The command of a word: total, reading no state, with the tests in the order of R31. -/
def decode (w : InputWord) : Instr :=
  if w.rst then .reset
  else if w.op = 0b00#2 then .idle
  else if w.op = 0b01#2 then .update w.data
  else if w.op = 0b10#2 then .init
  else .start w.data

/-- Why a number is not an input word. -/
inductive DecodeError where
  /-- The number needs more than the 11 bits of `w` (R30, R35). -/
  | tooWide
  deriving DecidableEq, Repr

/-- The input word a number stands for, or why it stands for none. -/
def inputWordOfNat (n : Nat) : Except DecodeError InputWord :=
  if n < 2048 then .ok (BitVec.ofNat 11 n) else .error .tooWide

/-- Decode of a number: all 2048 words decode, a wider number is rejected by name. -/
def decodeNat (n : Nat) : Except DecodeError Instr :=
  match inputWordOfNat n with
  | .ok w => .ok (decode w)
  | .error e => .error e

/-! ### Encode -/

/-- The canonical word of a command: every don't-care bit zero (R34, R36). -/
def encode (i : Instr) : InputWord :=
  match i with
  | .reset => 0x400#11
  | .idle => 0x000#11
  | .update d => 0x100#11 ||| d.setWidth 11
  | .init => 0x200#11
  | .start d => 0x300#11 ||| d.setWidth 11

/-! ### The command map (R33) -/

/-- One row of the command map: `w &&& mask = pattern` selects it; `care` has a 1 at every bit the
decode of the row's words reads, operand bits included. -/
structure Row where
  mnemonic : String
  mask : InputWord
  pattern : InputWord
  care : InputWord
  words : Nat
  deriving DecidableEq, Repr

def rowReset : Row := ⟨"RESET", 0x400#11, 0x400#11, 0x400#11, 1024⟩
def rowIdle : Row := ⟨"IDLE", 0x700#11, 0x000#11, 0x700#11, 256⟩
def rowUpdate : Row := ⟨"UPDATE", 0x700#11, 0x100#11, 0x7FF#11, 256⟩
def rowInit : Row := ⟨"INIT", 0x700#11, 0x200#11, 0x700#11, 256⟩
def rowStart : Row := ⟨"START", 0x700#11, 0x300#11, 0x7FF#11, 256⟩

/-- The five rows, in the table's order. -/
def rows : List Row := [rowReset, rowIdle, rowUpdate, rowInit, rowStart]

/-- Does the row select the word? -/
def Row.selects (r : Row) (w : InputWord) : Bool := decide (w &&& r.mask = r.pattern)

/-- The row of a command. -/
def rowOf (i : Instr) : Row :=
  match i with
  | .reset => rowReset
  | .idle => rowIdle
  | .update _ => rowUpdate
  | .init => rowInit
  | .start _ => rowStart

/-! ### The assembler notation (R36, R37) -/

/-- The byte an operand stands for (meaningful when the operand is well formed). -/
def Operand.byte (o : Operand) : Byte :=
  match o with
  | .hex n => BitVec.ofNat 8 n
  | .chr c => BitVec.ofNat 8 c.toNat

/-- `MSG`: START with the first byte, UPDATE with the others; INIT for the empty message (R37). -/
def msgWords (m : Message) : List InputWord :=
  match m with
  | [] => [encode .init]
  | b :: bs => encode (.start b) :: bs.map (fun d => encode (.update d))

/-- `MSGI`: INIT, then UPDATE with every byte (R37). -/
def msgiWords (m : Message) : List InputWord :=
  encode .init :: m.map (fun d => encode (.update d))

/-- The input words a line stands for, in the order of the steps. -/
def Line.words (l : Line) : List InputWord :=
  match l with
  | .reset => [encode .reset]
  | .idle => [encode .idle]
  | .init => [encode .init]
  | .update o => [encode (.update o.byte)]
  | .start o => [encode (.start o.byte)]
  | .word n => [BitVec.ofNat 11 n]
  | .msg bs => msgWords (bs.map Operand.byte)
  | .msgi bs => msgiWords (bs.map Operand.byte)
  | .chunkcrc t0 t1 t2 t3 p => msgWords ((t0 :: t1 :: t2 :: t3 :: p).map Operand.byte)
  | .nop => [encode .idle]

/-- A program: the words of its lines, none when a line is ill formed. -/
def assemble (p : List Line) : Option (List InputWord) :=
  if p.all Line.wellFormed then some (p.flatMap Line.words) else none

/-! ### The host's view of the decoder -/

/-- The word whose `nbits` table bits are `v`, every bit above them 0: none when it is wider than `w`. -/
def tableWord (nbits v : Nat) : Option InputWord :=
  match inputWordOfNat (v % 2 ^ nbits) with
  | .ok w => some w
  | .error _ => none

/-- What the decoder reads from a word numbered as spec/opcode_table.json numbers it (bit 0 the least
significant of the one 11-bit word). -/
def decodeTableWord (nbits w : Nat) : Option Instr := (tableWord nbits w).map decode

end Sys2Proof
end

