-- ==== Sys2Proof/Machine/Operands.lean ====
section
/-! DEFINITION. The one operand form (spec 30_encoding.md R32): the byte `data`, used as it stands and
zero-extended where the datapath needs 32 bits. -/

namespace Sys2Proof.Machine

/-- `zext_32(b)` (R6): bits 7:0 are `b`, bits 31:8 are 0. -/
def zext32 (b : Byte) : Crc := b.setWidth 32

end Sys2Proof.Machine
end

