-- ==== Sys2Proof/Config.lean ====
section
/-! DEFINITION. The implementation parameters of spec 00_scope.md R5 and 40_crc_arithmetic.md R40, and
the one free value: the words the host presents that the state does not list. -/

namespace Sys2Proof.Config

/-- `POLY` (R40): the polynomial constant, already in reflected form, used as it stands with right
shifts (90_conflicts.md C2). -/
def poly : Crc := 0xEDB88320#32

/-- `INIT` (R40): the seed, all 32 bits ones (90_conflicts.md C1). -/
def init : Crc := 0xFFFFFFFF#32

/-- `XOROUT` (R40): the final inversion. -/
def xorout : Crc := 0xFFFFFFFF#32

/-- `RESET_VALUE` (R19): the value of `crc` after a RESET step, chosen equal to `INIT` by the spec. -/
def resetValue : Crc := 0xFFFFFFFF#32

/-- FREE VALUE (no body). The word the host drives at a step for which the state lists no word: the
`n`-th such word. Every step has exactly one definite 11-bit word (R30; 93_implementation_defined.md U3)
and which one is the host's business (R4, R13), so nothing constrains it.
DESIGN CHOICE, safe: notes/assumptions/2.md. -/
opaque hostWord : Nat → InputWord

end Sys2Proof.Config
end

