-- ==== Sys2Proof/Machine/State.lean ====
section
/-! DEFINITION. The whole state (spec 10_state.md R10), the reasons a step can stop (none in use:
60_exceptions.md R70), the state after reset (R19) and the state at power-on (R80). -/

namespace Sys2Proof.Machine

/-- The block's one register, and the host's side of the interface: the words it will present.
Plain data; only `crc` is state of the block (R10). -/
structure State where
  /-- The raw running value, before the final inversion (R10, R11). The block's WHOLE state. -/
  crc : Crc
  /-- The host's words still to be presented, the next step's first (R4, R13, R93). Not state of the
  block: the input of its coming steps, held as data. -/
  presented : List InputWord
  /-- The MODEL's own counter: how many free words (`Config.hostWord`) have been drawn so far. -/
  drawn : Nat
  deriving DecidableEq, Repr

/-- Reasons to stop with a fault. THERE IS NONE: the block raises no exception for any command, any
operand and any state (R70), so the type has no constructor. -/
inductive Fault where
  deriving DecidableEq, Repr

/-- Reasons to refuse. A step refuses nothing (R63). -/
inductive Refusal where
  /-- Raised by `exec` for a command that has no meaning yet; no command is left without one. Safe. -/
  | notModelled (mnemonic : String)
  deriving DecidableEq, Repr

/-- The three outcomes of a step of this machine. -/
abbrev Outcome := Host.Outcome State Fault Refusal

/-- The machine right after a RESET step (R19): `crc = RESET_VALUE`, and no word listed yet. -/
def State.reset : State := { crc := Config.resetValue, presented := [], drawn := 0 }

/-- The machine at power-on, before any step (R80). `POWER_ON_CRC` is unspecified, so it is an
argument, and a claim quantifies over it (92_eei_decisions.md OPEN parameters). -/
def State.powerOn (powerOnCrc : Crc) : State := { crc := powerOnCrc, presented := [], drawn := 0 }

end Sys2Proof.Machine
end

