-- ==== Sys2Proof/Machine/Ops.lean ====
section
/-! DEFINITION. The shared operations: the two functions of the datapath (spec 40_crc_arithmetic.md
R42, R43), the write of the register, and the sampling of the input word. There is no memory (R20)
and no exception to take (R70, R74, R75). -/

namespace Sys2Proof.Machine

/-- `bitstep` (R42): one step of the division. The shift is logical. -/
def bitstep (c : Crc) : Crc :=
  if c.getLsbD 0 then (c >>> 1) ^^^ Config.poly else c >>> 1

/-- `bytestep` (R43): the byte XORed into bits 7:0, then eight bit steps. -/
def bytestep (c : Crc) (b : Byte) : Crc := bitstep^[8] (c ^^^ zext32 b)

/-- `crc <- v` (R7): the write takes effect at the end of the step and nothing else changes. -/
def State.setCrc (s : State) (v : Crc) : State := { s with crc := v }

/-- The command's whole effect is one write of the register, and the machine goes on (R18, R70). -/
def loadCrc (v : Crc) (s : State) : Outcome := .next (s.setCrc v)

/-- The word of this step and the state with that word taken (R27, R30: one word per step, in order).
Where the state lists none, the host's word is a free value (notes/assumptions/2.md). -/
def State.sample (s : State) : InputWord × State :=
  match s.presented with
  | w :: ws => (w, { s with presented := ws })
  | [] => (Config.hostWord s.drawn, { s with drawn := s.drawn + 1 })

/-- The host presents the words `ws`, in order, before whatever it would have presented (R4, R93). -/
def State.present (s : State) (ws : List InputWord) : State :=
  { s with presented := ws ++ s.presented }

end Sys2Proof.Machine
end

