-- ==== Sys2Proof/Machine/Commands.lean ====
section
/-! DEFINITION. The meaning of each of the five commands (spec 41_commands.md R55 to R59), in the
table's order. None writes a flag (R14) and none raises an exception (R70). -/

namespace Sys2Proof.Machine

/-- RESET (R55): `crc <- RESET_VALUE`; the old value is not read. -/
def execReset (s : State) : Outcome := loadCrc Config.resetValue s

/-- IDLE (R56): `crc <- crc`. -/
def execIdle (s : State) : Outcome := loadCrc s.crc s

/-- UPDATE d (R57): `crc <- bytestep(crc, d)`. -/
def execUpdate (d : Byte) (s : State) : Outcome := loadCrc (bytestep s.crc d) s

/-- INIT (R58): `crc <- INIT`; the old value is not read. -/
def execInit (s : State) : Outcome := loadCrc Config.init s

/-- START d (R59): seed first, then the byte, in one step; the old value is not read. -/
def execStart (d : Byte) (s : State) : Outcome := loadCrc (bytestep Config.init d) s

end Sys2Proof.Machine
end

