-- ==== Sys2Proof/Machine/Dispatch.lean ====
section
/-! DEFINITION. One arm per command (spec 41_commands.md R55 to R59). -/

namespace Sys2Proof.Machine

def exec (i : Instr) (s : State) : Host.Outcome State Fault Refusal :=
  match i with
  | .reset => Sys2Proof.Machine.execReset s
  | .idle => Sys2Proof.Machine.execIdle s
  | .update d => Sys2Proof.Machine.execUpdate d s
  | .init => Sys2Proof.Machine.execInit s
  | .start d => Sys2Proof.Machine.execStart d s

end Sys2Proof.Machine
end

