-- ==== Sys2Proof/Machine/Step.lean ====
section
/-! DEFINITION. One step of the machine (spec 41_commands.md R63): one rising edge of `clk` (R89)
samples one input word, decodes it and applies the command. -/

namespace Sys2Proof.Machine

/-- Sample, decode, execute. Total: it answers a next state for every state (R63, R70). -/
def step (s : State) : Host.Outcome State Fault Refusal :=
  exec (decode s.sample.1) s.sample.2

/-- The state in which the host presents, at the very next step, the word whose table bits are `w`.
A number that is no 11-bit word cannot be presented and changes nothing. -/
def State.withFetchWord (s : State) (nbits w : Nat) : State :=
  match tableWord nbits w with
  | some v => s.present [v]
  | none => s

end Sys2Proof.Machine
end

