-- ==== Sys2Proof/Machine/Crc.lean ====
section
/-! DEFINITION. The CRC of a message as a pure function (spec 40_crc_arithmetic.md R45 to R47), and the
other forms the spec gives of the datapath: the bit-serial byte step (R44), the inverse bit step
(R50), the whole next-value function of R63 and its multiplexer view. The machine does not call
these; claims compare it with them. -/

namespace Sys2Proof.Machine

/-- `crc_from(c, m) = foldl bytestep c m` (R45). -/
def crcFrom (c : Crc) (m : Message) : Crc := m.foldl bytestep c

/-- `crc_raw(m)` (R45): the running value after the message, before the inversion. -/
def crcRaw (m : Message) : Crc := crcFrom Config.init m

/-- `crc32(m)` (R46): the result, inverted once after the last byte. -/
def crc32 (m : Message) : Crc := crcRaw m ^^^ Config.xorout

/-- The message of a chunk (R21, R47): the four type bytes in wire order, then the payload. The length
field, the checksum field and the signature are no part of it. -/
def chunkMessage (t0 t1 t2 t3 : Byte) (payload : Message) : Message := [t0, t1, t2, t3] ++ payload

/-- One round of the bit-serial form (R44): the feedback bit is `c[0] ^ b[i]`. -/
def serialRound (b : Byte) (c : Crc) (i : Nat) : Crc :=
  if c.getLsbD 0 ^^ b.getLsbD i then (c >>> 1) ^^^ Config.poly else c >>> 1

/-- `bytestep_serial` (R44): bit 0 of the byte first, bit 7 last. -/
def bytestepSerial (c : Crc) (b : Byte) : Crc := [0, 1, 2, 3, 4, 5, 6, 7].foldl (serialRound b) c

/-- `bitstep_inv` (R50). -/
def bitstepInv (r : Crc) : Crc :=
  if r.getLsbD 31 then ((r ^^^ Config.poly) <<< 1) ||| 1#32 else r <<< 1

/-- The `step` of R63 on the register alone, test by test as R63 prints it. -/
def nextCrc (c : Crc) (w : InputWord) : Crc :=
  if w.getLsbD 10 then 0xFFFFFFFF#32
  else if w.extractLsb' 8 2 = 0b00#2 then c
  else if w.extractLsb' 8 2 = 0b01#2 then bytestep c (w.extractLsb' 0 8)
  else if w.extractLsb' 8 2 = 0b10#2 then 0xFFFFFFFF#32
  else bytestep 0xFFFFFFFF#32 (w.extractLsb' 0 8)

/-- The "equivalent datapath view" of R63: a seed multiplexer, then a byte step selected by `valid`,
then `rst` over all. -/
def nextCrcMux (c : Crc) (w : InputWord) : Crc :=
  let seeded : Crc := if w.getLsbD 9 then 0xFFFFFFFF#32 else c
  let absorbed : Crc := if w.getLsbD 8 then bytestep seeded (w.extractLsb' 0 8) else seeded
  if w.getLsbD 10 then 0xFFFFFFFF#32 else absorbed

/-- The coefficient of `x^k`, `k <= 31`, in the generator polynomial of R41 (its `x^32` term is
implicit in the constant). -/
def generatorCoeff (k : Nat) : Bool := decide (k ∈ [26, 23, 22, 16, 12, 11, 10, 8, 7, 5, 4, 2, 1, 0])

end Sys2Proof.Machine
end

