-- ==== Sys2Proof/Machine/Trace.lean ====
section
/-! DEFINITION. Runs (spec 70_reset_and_hazards.md R91; 41_commands.md R62, R93): several steps over the
words the host presents, and the message a sequence of words stands for. -/

namespace Sys2Proof.Machine

/-- `k` steps, one after the other, stopping where a step stops. -/
def run (k : Nat) (s : State) : Outcome :=
  match k with
  | 0 => .next s
  | k + 1 =>
    match step s with
    | .next t => run k t
    | .fault f => .fault f
    | .refused r => .refused r

/-- The run of R91: the host presents the words `ws` and each is taken in one step. -/
def runWords (s : State) (ws : List InputWord) : Outcome := run ws.length (s.present ws)

/-- A seeding command (R83): RESET, INIT or START. -/
def seeds (i : Instr) : Bool :=
  match i with
  | .reset => true
  | .idle => false
  | .update _ => false
  | .init => true
  | .start _ => true

/-- The byte a command absorbs, if it absorbs one. -/
def absorbedByte (i : Instr) : Option Byte :=
  match i with
  | .reset => none
  | .idle => none
  | .update d => some d
  | .init => none
  | .start d => some d

/-- The bytes a sequence of words absorbs, in order (R62). -/
def absorbed (ws : List InputWord) : Message :=
  ws.filterMap (fun w => absorbedByte (decode w))

/-- The message in progress after a command (R11): the bytes taken since the last seed, that seed's own
byte included. `none` stands for "no seed yet" (R80). -/
def messageAfter (m : Option Message) (i : Instr) : Option Message :=
  match i with
  | .reset => some []
  | .idle => m
  | .update d => m.map (fun bs => bs ++ [d])
  | .init => some []
  | .start d => some [d]

/-- The message in progress after a sequence of words, from `m`. -/
def messageOf (m : Option Message) (ws : List InputWord) : Option Message :=
  ws.foldl (fun acc w => messageAfter acc (decode w)) m

/-- R11: `crc` holds `crc_raw` of the message in progress. Says nothing before the first seed (R80). -/
def State.holdsMessage (s : State) (m : Option Message) : Prop :=
  ∀ bs, m = some bs → s.crc = crcRaw bs

/-- A message with bit `i` of its byte `k` inverted (R52). -/
def flipBit (m : Message) (k i : Nat) : Message := m.modify k (fun b => b ^^^ BitVec.twoPow 8 i)

end Sys2Proof.Machine
end

