-- ==== Sys2Proof/Machine/Outputs.lean ====
section
/-! DEFINITION. The output ports (spec 10_state.md R15; 41_commands.md R60, R61): combinational
functions of `crc` with no register of their own, so reading them changes nothing (R25). -/

namespace Sys2Proof.Machine

/-- The values on the output ports. -/
structure Outputs where
  /-- `crc_out`, 32 bits. -/
  crcOut : Crc
  /-- `crc_byte0`, first on the wire. -/
  crcByte0 : Byte
  crcByte1 : Byte
  crcByte2 : Byte
  /-- `crc_byte3`, last on the wire. -/
  crcByte3 : Byte
  deriving DecidableEq, Repr

/-- `crc_out = crc ^ XOROUT` (R60). -/
def State.crcOut (s : State) : Crc := s.crc ^^^ Config.xorout

/-- The byte of a 32-bit value that stands `k`-th on the wire, `k = 0 .. 3` (R23, R61: big-endian). -/
def wireByte (v : Crc) (k : Nat) : Byte := v.extractLsb' (8 * (3 - k)) 8

/-- All output ports (R63 `out`). -/
def State.out (s : State) : Outputs :=
  { crcOut := s.crcOut
    crcByte0 := wireByte s.crcOut 0
    crcByte1 := wireByte s.crcOut 1
    crcByte2 := wireByte s.crcOut 2
    crcByte3 := wireByte s.crcOut 3 }

end Sys2Proof.Machine
end

