-- ==== Sys2Proof/Machine/Wire.lean ====
section
/-! DEFINITION. The result on the wire and the consumer that compares it (spec 20_memory.md R23;
60_exceptions.md R71). The comparison is the consumer's, outside the block: no command of the machine
calls it. -/

namespace Sys2Proof.Machine

/-- The four bytes of a 32-bit value in wire order, the byte of bits 31:24 first (R23). -/
def toWire (v : Crc) : List Byte := [wireByte v 0, wireByte v 1, wireByte v 2, wireByte v 3]

/-- `stored = {byte0, byte1, byte2, byte3}` (R61): the four trailing bytes of a chunk, as a number. -/
def fromWire (b0 b1 b2 b3 : Byte) : Crc := b0 ++ b1 ++ b2 ++ b3

/-- The consumer's check (R71): it raises InvalidChecksum if and only if this is false. -/
def check (stored : Crc) (s : State) : Bool := decide (stored = s.out.crcOut)

end Sys2Proof.Machine
end

