-- ==== Sys2Proof/Safety.lean ====
section
/-! DEFINITION. What counts as a safe run. The block never stops (spec 60_exceptions.md R70), so safety is
the host's: the premises under which `crc_out` means the CRC of the message the host has in mind
(70_reset_and_hazards.md R83, R86). -/

namespace Sys2Proof.Safety

open Sys2Proof.Machine

/-- The machine goes on from this state: the step neither faults nor refuses. -/
def goesOn (s : State) : Prop := ∃ t, step s = .next t

/-- No seeding command among the words (R83: none may occur inside a message). -/
def noSeed (ws : List InputWord) : Bool := ws.all (fun w => !(seeds (decode w)))

/-- Only IDLE among the words (R86: the window in which the result stands). -/
def onlyIdle (ws : List InputWord) : Bool := ws.all (fun w => decide (decode w = .idle))

/-- The words of one message (R83): a seeding command, then none. -/
def oneMessage (ws : List InputWord) : Bool :=
  match ws with
  | [] => false
  | w :: rest => seeds (decode w) && noSeed rest

end Sys2Proof.Safety
end

