-- ==== Sys2Proof/Certificates/Slice0/Obligations.lean ====
section
/-! DEFINITION. The statements for the provers, each from the numbered rules of spec/. `s.present [w]` is
the state whose very next step takes the word `w`; `runWords s ws` takes the words `ws`, one a step. -/

open Sys2Proof Sys2Proof.Machine Sys2Proof.Safety

/-! ### Encoding (30_encoding.md) -/

/-- Words written bit by bit from R30 and R33 (`rst init valid data`) decode to their commands; a sanity
statement. -/
def Obligations.WrittenWordsDecode : Prop :=
  decode 0b10000000000#11 = .reset ∧ decode 0b11111111111#11 = .reset ∧
  decode 0b00000000000#11 = .idle ∧ decode 0b00011111111#11 = .idle ∧
  decode 0b00110101011#11 = .update 0xAB#8 ∧
  decode 0b01000000000#11 = .init ∧ decode 0b01010100101#11 = .init ∧
  decode 0b01100110001#11 = .start 0x31#8

/-- Round trip over every well-formed command, every operand value (R31, R34, R36). -/
def Obligations.DecodeOfEncode : Prop :=
  ∀ i : Instr, i.wellFormed = true → decode (encode i) = i

/-- The other direction (R34): re-encoding a decoded word clears exactly the bits its command does not
read. -/
def Obligations.EncodeOfDecodeIsCanonical : Prop :=
  ∀ w : InputWord, encode (decode w) = w &&& (rowOf (decode w)).care

/-- R33: the five sets of words are disjoint, cover all 2048 words, and have the printed sizes. -/
def Obligations.RowsPartitionTheWords : Prop :=
  rows.map (fun r => (r.mnemonic, r.mask, r.pattern, r.words)) =
    [("RESET", 0x400#11, 0x400#11, 1024), ("IDLE", 0x700#11, 0x000#11, 256),
     ("UPDATE", 0x700#11, 0x100#11, 256), ("INIT", 0x700#11, 0x200#11, 256),
     ("START", 0x700#11, 0x300#11, 256)] ∧
  (∀ w : InputWord, rows.filter (fun r => r.selects w) = [rowOf (decode w)]) ∧
  (∀ r ∈ rows, (List.range 2048).countP (fun n => r.selects (BitVec.ofNat 11 n)) = r.words)

/-- R34: every word is legal, don't-care bits are not read, and the canonical words have them zero. -/
def Obligations.DontCareBitsAreIgnored : Prop :=
  (∀ n, n < 2048 → decodeNat n = .ok (decode (BitVec.ofNat 11 n))) ∧
  (∀ w v : InputWord, w &&& (rowOf (decode w)).care = v &&& (rowOf (decode w)).care →
    decode v = decode w ∧ ∀ s : State, step (s.present [v]) = step (s.present [w])) ∧
  (∀ w v : InputWord, w.getLsbD 10 = true → v.getLsbD 10 = true → decode v = decode w) ∧
  (∀ (w : InputWord) (x : Byte), (w.extractLsb' 8 3 = 0b000#3 ∨ w.extractLsb' 8 3 = 0b010#3) →
    decode (w.extractLsb' 8 3 ++ x) = decode w) ∧
  encode .reset = 0x400#11 ∧ encode .idle = 0x000#11 ∧ encode .init = 0x200#11

/-- R30: the number of a word, and its fields read back. -/
def Obligations.WordOfFields : Prop :=
  ∀ (rst init valid : Bool) (data : Byte),
    (InputWord.ofFields rst init valid data).toNat =
      rst.toNat * 1024 + init.toNat * 512 + valid.toNat * 256 + data.toNat ∧
    (InputWord.ofFields rst init valid data).rst = rst ∧
    (InputWord.ofFields rst init valid data).init = init ∧
    (InputWord.ofFields rst init valid data).valid = valid ∧
    (InputWord.ofFields rst init valid data).op = BitVec.ofBool init ++ BitVec.ofBool valid ∧
    (InputWord.ofFields rst init valid data).data = data

/-- R36: the notation's lines stand for the words printed there, whatever the operand. -/
def Obligations.NotationLinesAssemble : Prop :=
  assemble [.reset] = some [0x400#11] ∧ assemble [.idle] = some [0x000#11] ∧
  assemble [.init] = some [0x200#11] ∧
  (∀ n, n ≤ 0xFF → assemble [.update (.hex n)] = some [BitVec.ofNat 11 (0x100 + n)] ∧
    assemble [.start (.hex n)] = some [BitVec.ofNat 11 (0x300 + n)]) ∧
  (∀ c : Char, 0x20 ≤ c.toNat → c.toNat ≤ 0x7E →
    assemble [.update (.chr c)] = some [BitVec.ofNat 11 (0x100 + c.toNat)] ∧
    assemble [.start (.chr c)] = some [BitVec.ofNat 11 (0x300 + c.toNat)]) ∧
  (∀ n, n < 2048 → assemble [.word n] = some [BitVec.ofNat 11 n]) ∧
  (∀ p q : List Line, p.all Line.wellFormed = true → q.all Line.wellFormed = true →
    assemble (p ++ q) = some (p.flatMap Line.words ++ q.flatMap Line.words))

/-! ### One step -/

/-- A step runs the word the host presents (R27, R31): it takes the word, decodes it, and is `exec` of
the command. -/
def Obligations.StepRunsThePresentedWord : Prop :=
  ∀ (s : State) (w : InputWord) (ws : List InputWord), s.presented = w :: ws →
    step s = exec (decode w) { s with presented := ws }

/-- THE MODEL'S CHOICE (log entry 2): where the state lists no word, the step takes a free word, about
which nothing is known, and counts it. -/
def Obligations.StepWithoutWordDrawsFreeWord : Prop :=
  ∀ s : State, s.presented = [] →
    step s = exec (decode (Config.hostWord s.drawn)) { s with drawn := s.drawn + 1 }

/-- The word placed for the next step is the one it runs, for every word the table numbers
(log entry 3). -/
def Obligations.PlacedWordIsRun : Prop :=
  ∀ (s : State) (nbits n : Nat), n < 2048 → 11 ≤ nbits →
    decodeTableWord nbits n = some (decode (BitVec.ofNat 11 n)) ∧
    step (s.withFetchWord nbits n) = exec (decode (BitVec.ofNat 11 n)) s

/-- R63 whole: the step function test by test, the multiplexer view, and the outputs. -/
def Obligations.StepIsTheSpecStepFunction : Prop :=
  (∀ (s : State) (w : InputWord), step (s.present [w]) = .next (s.setCrc (
    if w.getLsbD 10 then 0xFFFFFFFF#32
    else if w.extractLsb' 8 2 = 0b00#2 then s.crc
    else if w.extractLsb' 8 2 = 0b01#2 then bytestep s.crc (w.extractLsb' 0 8)
    else if w.extractLsb' 8 2 = 0b10#2 then 0xFFFFFFFF#32
    else bytestep 0xFFFFFFFF#32 (w.extractLsb' 0 8)))) ∧
  (∀ (s : State) (w : InputWord), step (s.present [w]) = .next { s with crc := nextCrcMux s.crc w }) ∧
  (∀ s : State, s.out =
    { crcOut := s.crc ^^^ 0xFFFFFFFF#32
      crcByte0 := (s.crc ^^^ 0xFFFFFFFF#32).extractLsb' 24 8
      crcByte1 := (s.crc ^^^ 0xFFFFFFFF#32).extractLsb' 16 8
      crcByte2 := (s.crc ^^^ 0xFFFFFFFF#32).extractLsb' 8 8
      crcByte3 := (s.crc ^^^ 0xFFFFFFFF#32).extractLsb' 0 8 })

/-- R70: no command, operand or state raises anything, no word is illegal, and there is no cause to
record. -/
def Obligations.NothingIsEverRaised : Prop :=
  (∀ (i : Instr) (s : State), ∃ t, exec i s = .next t) ∧ (∀ s : State, goesOn s) ∧
  (∀ (k : Nat) (s : State), ∃ t, run k s = .next t) ∧
  (∀ n, n < 2048 → ∃ i, decodeNat n = .ok i) ∧ (∀ _ : Fault, False)

/-- Frame (R18): a command writes the register and nothing else, and IDLE not even that. -/
def Obligations.CommandsWriteOnlyCrc : Prop :=
  ∀ (i : Instr) (s t : State), exec i s = .next t →
    t.presented = s.presented ∧ t.drawn = s.drawn ∧ (i = .idle → t.crc = s.crc)

/-- R55 RESET: the command, every word of its encoding, and the corner cases. -/
def Obligations.ResetLoadsTheResetValue : Prop :=
  (∀ s : State, exec .reset s = .next { s with crc := 0xFFFFFFFF#32 }) ∧
  (∀ (s : State) (w : InputWord), w &&& 0x400#11 = 0x400#11 →
    step (s.present [w]) = .next { s with crc := 0xFFFFFFFF#32 }) ∧
  (∀ s : State, exec .reset s = exec .init s) ∧
  (∀ (s : State) (w v : InputWord), w &&& 0x400#11 = 0x400#11 → v &&& 0x400#11 = 0x400#11 →
    runWords s [w, v] = runWords s [w]) ∧
  (∀ s : State, step (s.present [0x7FF#11]) = .next { s with crc := 0xFFFFFFFF#32 }) ∧
  bytestep Config.init 0xFF#8 ≠ 0xFFFFFFFF#32 ∧
  (∀ s t : State, exec .reset s = .next t → t.crcOut = 0x00000000#32)

/-- R56 IDLE: the state holds, whatever the data bits, any number of times. -/
def Obligations.IdleHoldsTheState : Prop :=
  (∀ s : State, exec .idle s = .next s) ∧
  (∀ (s : State) (w : InputWord), w &&& 0x700#11 = 0x000#11 → step (s.present [w]) = .next s) ∧
  (∀ (s : State) (ws : List InputWord), (∀ w ∈ ws, w &&& 0x700#11 = 0x000#11) →
    runWords s ws = .next s)

/-- R57 UPDATE: `crc <- bytestep(crc, d)`, with its corner cases; it appends `d` to the message in
progress, and it is the one command whose result depends on the old `crc` (IDLE leaves the state, and
each other command loads one value from every state). -/
def Obligations.UpdateAbsorbsTheByte : Prop :=
  (∀ (s : State) (d : Byte), exec (.update d) s = .next { s with crc := bytestep s.crc d }) ∧
  (∀ (s : State) (w : InputWord), w &&& 0x700#11 = 0x100#11 →
    step (s.present [w]) = .next { s with crc := bytestep s.crc (w.extractLsb' 0 8) }) ∧
  (∀ (s : State) (d : Byte),
    step (s.present [0x100#11 + d.setWidth 11]) = .next { s with crc := bytestep s.crc d }) ∧
  bytestep 0xFFFFFFFF#32 0x00#8 = 0x2DFD1072#32 ∧ bytestep 0x00000000#32 0x00#8 = 0x00000000#32 ∧
  bytestep 0x7C231048#32 0x32#8 = 0xB0ACBB32#32 ∧
  (∀ s : State, runWords s [0x200#11, 0x1FF#11, 0x1FF#11, 0x1FF#11, 0x1FF#11] =
    .next { s with crc := 0x00000000#32 }) ∧
  (∀ (s : State) (d : Byte) (m : Message), s.crc = crcRaw m →
    exec (.update d) s = .next { s with crc := crcRaw (m ++ [d]) }) ∧
  (∀ d : Byte, bytestep 0x00000000#32 d ≠ bytestep 0xFFFFFFFF#32 d) ∧
  (∀ i : Instr, (∀ d, i ≠ .update d) →
    (∀ s : State, exec i s = .next s) ∨ ∃ c, ∀ s : State, exec i s = .next { s with crc := c })

/-- R58 INIT: seeds, absorbs nothing, and twice is once. -/
def Obligations.InitSeedsTheRegister : Prop :=
  (∀ s : State, exec .init s = .next { s with crc := 0xFFFFFFFF#32 }) ∧
  (∀ (s : State) (w : InputWord), w &&& 0x700#11 = 0x200#11 →
    step (s.present [w]) = .next { s with crc := 0xFFFFFFFF#32 }) ∧
  (∀ (s : State) (w v : InputWord), w &&& 0x700#11 = 0x200#11 → v &&& 0x700#11 = 0x200#11 →
    runWords s [w, v] = runWords s [w]) ∧
  (∀ s t : State, exec .init s = .next t → t.crcOut = 0x00000000#32 ∧ t.crcOut = crc32 [])

/-- R59 START: seed, then absorb, in one step; the same as INIT and then UPDATE. -/
def Obligations.StartSeedsThenAbsorbs : Prop :=
  (∀ (s : State) (d : Byte), exec (.start d) s = .next { s with crc := bytestep 0xFFFFFFFF#32 d }) ∧
  (∀ (s : State) (w : InputWord), w &&& 0x700#11 = 0x300#11 →
    step (s.present [w]) = .next { s with crc := bytestep 0xFFFFFFFF#32 (w.extractLsb' 0 8) }) ∧
  (∀ (s : State) (d : Byte),
    step (s.present [0x300#11 + d.setWidth 11]) = .next { s with crc := bytestep 0xFFFFFFFF#32 d }) ∧
  (∀ (s : State) (d : Byte),
    runWords s [encode .init, encode (.update d)] = runWords s [encode (.start d)]) ∧
  (∀ (s : State) (d : Byte),
    runWords s [encode (.start d), encode (.start d)] = runWords s [encode (.start d)]) ∧
  bytestep 0xFFFFFFFF#32 0xFF#8 = 0x00FFFFFF#32 ∧ bytestep 0xFFFFFFFF#32 0x00#8 = 0x2DFD1072#32 ∧
  (∀ s t : State, exec (.start 0x31#8) s = .next t →
    t.crc = 0x7C231048#32 ∧ t.crcOut = 0x83DCEFB7#32)

/-- R73: the order among control bits set together. -/
def Obligations.ControlBitPriority : Prop :=
  ∀ (s : State) (init valid : Bool) (data : Byte),
    step (s.present [InputWord.ofFields true init valid data]) =
      .next { s with crc := 0xFFFFFFFF#32 } ∧
    step (s.present [InputWord.ofFields false true true data]) =
      .next { s with crc := bytestep 0xFFFFFFFF#32 data } ∧
    step (s.present [InputWord.ofFields false true false data]) =
      .next { s with crc := 0xFFFFFFFF#32 } ∧
    step (s.present [InputWord.ofFields false false true data]) =
      .next { s with crc := bytestep s.crc data } ∧
    step (s.present [InputWord.ofFields false false false data]) = .next s

/-- UPDATE and START through the printed table (R57, R59, R66, R67), an independent form of the
datapath: index, shift by eight, one XOR. -/
def Obligations.AbsorbingByThePrintedTable : Prop :=
  ∀ (s : State) (d : Byte),
    exec (.update d) s =
      .next { s with crc := printedEntry ((s.crc ^^^ d.setWidth 32).extractLsb' 0 8) ^^^ (s.crc >>> 8) } ∧
    exec (.start d) s = .next { s with crc := printedEntry (~~~d) ^^^ 0x00FFFFFF#32 }

/-! ### Reset, power-on, outputs -/

/-- R19: what a RESET leaves, that `State.reset` is that state, and the power-on column. -/
def Obligations.ResetState : Prop :=
  (∀ (s : State) (w : InputWord), w.getLsbD 10 = true →
    ∃ t, step (s.present [w]) = .next t ∧ t.crc = 0xFFFFFFFF#32 ∧
      t.out = ⟨0x00000000#32, 0x00#8, 0x00#8, 0x00#8, 0x00#8⟩) ∧
  State.reset.crc = 0xFFFFFFFF#32 ∧ State.reset.crcOut = crc32 [] ∧
  (∀ v : Crc, (State.powerOn v).crc = v ∧ (State.powerOn v).crcOut = v ^^^ 0xFFFFFFFF#32)

/-- R80: whatever the power-on value, the block runs from the first step, and only the value is unknown;
R81, R82: any one seeding command, alone, makes all that follows independent of it. -/
def Obligations.SeedErasesPowerOnValue : Prop :=
  (∀ (v : Crc) (w : InputWord), ∃ c,
    step ((State.powerOn v).present [w]) = .next { State.powerOn v with crc := c }) ∧
  (∀ (w : InputWord) (ws : List InputWord), seeds (decode w) = true → ∃ c, ∀ s : State,
    runWords s (w :: ws) = .next { s with crc := c })

/-- R81: one step with `rst = 1` is a complete reset, and holding it for several changes nothing. -/
def Obligations.HoldingResetKeepsTheResetState : Prop :=
  ∀ (s : State) (ws : List InputWord), ws ≠ [] → (∀ w ∈ ws, w.getLsbD 10 = true) →
    runWords s ws = .next { s with crc := 0xFFFFFFFF#32 } ∧
    ∀ v : InputWord, runWords s (ws ++ [v]) = .next { s with crc := nextCrc 0xFFFFFFFF#32 v }

/-- R60: every bit inverted; reading is a function of the state, so it writes nothing back. -/
def Obligations.CrcOutInvertsEveryBit : Prop :=
  ∀ s : State, s.out.crcOut = s.crc ^^^ 0xFFFFFFFF#32 ∧ s.out.crcOut = ~~~s.crc ∧
    ∀ i, i < 32 → s.out.crcOut.getLsbD i = !(s.crc.getLsbD i)

/-- R61: the four bytes in wire order, and the consumer's assembly of them. -/
def Obligations.WireBytesAreBigEndian : Prop :=
  (∀ s : State, s.out.crcByte0 = s.out.crcOut.extractLsb' 24 8 ∧
    s.out.crcByte1 = s.out.crcOut.extractLsb' 16 8 ∧ s.out.crcByte2 = s.out.crcOut.extractLsb' 8 8 ∧
    s.out.crcByte3 = s.out.crcOut.extractLsb' 0 8 ∧
    toWire s.out.crcOut = [s.out.crcByte0, s.out.crcByte1, s.out.crcByte2, s.out.crcByte3] ∧
    fromWire s.out.crcByte0 s.out.crcByte1 s.out.crcByte2 s.out.crcByte3 = s.out.crcOut) ∧
  toWire 0xAE426082#32 = [0xAE#8, 0x42#8, 0x60#8, 0x82#8] ∧
  toWire 0xCBF43926#32 = [0xCB#8, 0xF4#8, 0x39#8, 0x26#8]

/-! ### Arithmetic (40_crc_arithmetic.md) -/

/-- R40, R41: the constant is the bit reversal of the generator polynomial's coefficients. -/
def Obligations.PolyIsTheReflectedGenerator : Prop :=
  Config.poly = 0xEDB88320#32 ∧ Config.init = 0xFFFFFFFF#32 ∧ Config.xorout = 0xFFFFFFFF#32 ∧
  (List.range 32).filter (fun i => Config.poly.getLsbD i) =
    [5, 8, 9, 15, 19, 20, 21, 23, 24, 26, 27, 29, 30, 31] ∧
  (∀ k, k < 32 → Config.poly.getLsbD (31 - k) = generatorCoeff k) ∧
  (∀ k, k < 32 → (0x04C11DB7#32).getLsbD k = generatorCoeff k)

/-- R42: `bitstep` as printed, bit by bit, and at its corner cases. -/
def Obligations.BitstepBitByBit : Prop :=
  (∀ c : Crc, bitstep c = if c.getLsbD 0 then (c >>> 1) ^^^ 0xEDB88320#32 else c >>> 1) ∧
  (∀ c : Crc, (bitstep c).getLsbD 31 = c.getLsbD 0) ∧
  (∀ (c : Crc) (i : Nat), i ≤ 30 → (bitstep c).getLsbD i =
    (c.getLsbD (i + 1) ^^ (c.getLsbD 0 && (0xEDB88320#32).getLsbD i))) ∧
  bitstep 0x00000000#32 = 0x00000000#32 ∧ bitstep 0x00000001#32 = 0xEDB88320#32 ∧
  bitstep 0x00000002#32 = 0x00000001#32 ∧ bitstep 0x80000000#32 = 0x40000000#32 ∧
  bitstep 0xFFFFFFFF#32 = 0x92477CDF#32 ∧ bitstep 0xFFFFFFFE#32 = 0x7FFFFFFF#32 ∧
  bitstep 0x12345678#32 = 0x091A2B3C#32

/-- R43: `bytestep` as printed, its law, its corner cases and the example's eight values. -/
def Obligations.BytestepRule : Prop :=
  (∀ (c : Crc) (b : Byte), bytestep c b = bitstep (bitstep (bitstep (bitstep (bitstep (bitstep
    (bitstep (bitstep (c ^^^ b.setWidth 32))))))))) ∧
  (∀ (c : Crc) (b : Byte), bytestep c b = bytestep (c ^^^ b.setWidth 32) 0x00#8) ∧
  bytestep 0x00000000#32 0x00#8 = 0x00000000#32 ∧ bytestep 0x00000000#32 0x01#8 = 0x77073096#32 ∧
  bytestep 0x00000000#32 0x80#8 = 0xEDB88320#32 ∧ bytestep 0x00000000#32 0xFF#8 = 0x2D02EF8D#32 ∧
  bytestep 0xFFFFFFFF#32 0x00#8 = 0x2DFD1072#32 ∧ bytestep 0xFFFFFFFF#32 0xFF#8 = 0x00FFFFFF#32 ∧
  bytestep 0x000000AB#32 0xAB#8 = 0x00000000#32 ∧ bytestep 0xFFFFFFFF#32 0x31#8 = 0x7C231048#32 ∧
  (List.range 9).map (fun k => bitstep^[k] (0xFFFFFFFF#32 ^^^ 0x31#32)) =
    [0xFFFFFFCE#32, 0x7FFFFFE7#32, 0xD2477CD3#32, 0x849B3D49#32, 0xAFF51D84#32, 0x57FA8EC2#32,
     0x2BFD4761#32, 0xF8462090#32, 0x7C231048#32]

/-- R44: the bit-serial form, bit 0 of the byte first, with the invariant of its derivation. -/
def Obligations.BitSerialFormAgrees : Prop :=
  (∀ (c : Crc) (b : Byte), bytestepSerial c b = bytestep c b) ∧
  (∀ (c : Crc) (b : Byte) (k : Nat), k ≤ 8 →
    bitstep^[k] (c ^^^ b.setWidth 32) =
      (List.range k).foldl (serialRound b) c ^^^ (b >>> k).setWidth 32)

/-- R45: `crc_raw` folds the bytes in order from the seed; the example's running values. -/
def Obligations.CrcRawFoldsFromTheSeed : Prop :=
  (∀ m : Message, crcRaw m = m.foldl bytestep 0xFFFFFFFF#32) ∧ crcRaw [] = 0xFFFFFFFF#32 ∧
  (∀ (c : Crc) (m : Message), crcFrom c m = m.foldl bytestep c) ∧
  (∀ m : Message, crcRaw m = crcFrom 0xFFFFFFFF#32 m) ∧
  (List.range 10).map (fun k => crcRaw
      ([0x31#8, 0x32#8, 0x33#8, 0x34#8, 0x35#8, 0x36#8, 0x37#8, 0x38#8, 0x39#8].take k)) =
    [0xFFFFFFFF#32, 0x7C231048#32, 0xB0ACBB32#32, 0x77B79C2D#32, 0x641C1F5C#32, 0x340AC5E3#32,
     0xF68D2C9E#32, 0xAFFC9660#32, 0x651F2550#32, 0x340BC6D9#32]

/-- R46: the inversion, once, after the last byte; the examples. -/
def Obligations.Crc32InvertsOnce : Prop :=
  (∀ m : Message, crc32 m = crcRaw m ^^^ 0xFFFFFFFF#32 ∧ crc32 m = ~~~(crcRaw m)) ∧
  crc32 [0x31#8, 0x32#8, 0x33#8, 0x34#8, 0x35#8, 0x36#8, 0x37#8, 0x38#8, 0x39#8] = 0xCBF43926#32 ∧
  crc32 [0x49#8, 0x45#8, 0x4E#8, 0x44#8] = 0xAE426082#32 ∧
  crc32 [0x00#8] = 0xD202EF8D#32 ∧ crc32 [0xFF#8] = 0xFF000000#32 ∧ crc32 [0x61#8] = 0xE8B7BE43#32

/-- R47: a chunk's checksum, at the function and at the machine's output after `CHUNKCRC`. -/
def Obligations.ChunkChecksum : Prop :=
  (∀ (s : State) (t0 t1 t2 t3 : Byte) (p : Message), ∃ t,
    runWords s (msgWords (chunkMessage t0 t1 t2 t3 p)) = .next t ∧
    t.out.crcOut = crc32 (t0 :: t1 :: t2 :: t3 :: p) ∧ t.presented = s.presented) ∧
  crc32 (chunkMessage 0x49#8 0x45#8 0x4E#8 0x44#8 []) = 0xAE426082#32 ∧
  crc32 (chunkMessage 0x72#8 0x75#8 0x53#8 0x74#8
    [0x74#8, 0x68#8, 0x69#8, 0x73#8, 0x20#8, 0x69#8, 0x73#8, 0x20#8, 0x77#8, 0x68#8, 0x65#8,
     0x72#8, 0x65#8, 0x20#8, 0x79#8, 0x6F#8, 0x75#8, 0x72#8, 0x20#8, 0x73#8, 0x65#8, 0x63#8,
     0x72#8, 0x65#8, 0x74#8, 0x20#8, 0x6D#8, 0x65#8, 0x73#8, 0x73#8, 0x61#8, 0x67#8, 0x65#8,
     0x20#8, 0x77#8, 0x69#8, 0x6C#8, 0x6C#8, 0x20#8, 0x62#8, 0x65#8, 0x21#8]) = 0x74774CBB#32

/-- R49: linearity over GF(2), of one bit, one byte, and whole messages of equal length; `crc32` itself is
affine, so a zero byte does not give zero and a leading zero byte changes the result. -/
def Obligations.LinearOverGF2 : Prop :=
  (∀ c d : Crc, bitstep (c ^^^ d) = bitstep c ^^^ bitstep d) ∧
  (∀ (c d : Crc) (a b : Byte), bytestep (c ^^^ d) (a ^^^ b) = bytestep c a ^^^ bytestep d b) ∧
  bytestep 0x00000000#32 0x00#8 = 0x00000000#32 ∧
  (∀ m n : Message, m.length = n.length →
    crc32 m ^^^ crc32 n = crcFrom 0x00000000#32 (List.zipWith (· ^^^ ·) m n)) ∧
  crc32 [0x00#8] = 0xD202EF8D#32 ∧ (∀ m : Message, crc32 (0x00#8 :: m) ≠ crc32 m)

/-- R50: the inverse bit step, the bijections, the injectivity, and the fixed point zero. -/
def Obligations.StepsAreInvertible : Prop :=
  (∀ c : Crc, bitstepInv (bitstep c) = c) ∧ (∀ r : Crc, bitstep (bitstepInv r) = r) ∧
  Function.Bijective bitstep ∧ (∀ b : Byte, Function.Bijective (fun c => bytestep c b)) ∧
  (∀ c : Crc, Function.Injective (bytestep c)) ∧ bytestep 0x00000000#32 0x00#8 = 0x00000000#32

/-- R51: a message continues from the raw value of its first part, and through the inverted one only
after undoing the inversion: continuing from `crc32` directly gives a wrong result, inverted at the end
for every pair of messages, and uninverted in the example "a" then "b". -/
def Obligations.MessagesContinue : Prop :=
  (∀ m n : Message, crcRaw (m ++ n) = crcFrom (crcRaw m) n) ∧
  (∀ (m : Message) (b : Byte), crcRaw (m ++ [b]) = bytestep (crcRaw m) b) ∧
  (∀ m n : Message, crc32 (m ++ n) = crcFrom (crc32 m ^^^ 0xFFFFFFFF#32) n ^^^ 0xFFFFFFFF#32) ∧
  (∀ m n : Message, crc32 (m ++ n) ≠ crcFrom (crc32 m) n ^^^ 0xFFFFFFFF#32) ∧
  crc32 ([0x61#8] ++ [0x62#8]) ≠ crcFrom (crc32 [0x61#8]) [0x62#8]

/-- R52: one flipped bit, in the message or in the stored checksum, is detected. -/
def Obligations.SingleBitFlipIsDetected : Prop :=
  (∀ (m : Message) (k i : Nat), k < m.length → i < 8 → crc32 (flipBit m k i) ≠ crc32 m) ∧
  (∀ (m : Message) (j : Nat), j < 32 → crc32 m ^^^ BitVec.twoPow 32 j ≠ crc32 m)

/-- R71 with R52: the consumer accepts what it should, and rejects every single flipped bit of the
message or of the four stored bytes. -/
def Obligations.ConsumerCheckRejectsOneFlip : Prop :=
  ∀ (s : State) (m : Message),
    (∃ t, runWords s (msgWords m) = .next t ∧ check (crc32 m) t = true ∧
      ∀ stored : Crc, check stored t = true ↔ stored = t.out.crcOut) ∧
    (∀ (k i : Nat), k < m.length → i < 8 → ∃ t, runWords s (msgWords (flipBit m k i)) = .next t ∧
      check (crc32 m) t = false) ∧
    (∀ j, j < 32 → ∃ t, runWords s (msgWords m) = .next t ∧
      check (crc32 m ^^^ BitVec.twoPow 32 j) t = false)

/-- R54: the empty message, also as the output after RESET and after INIT. -/
def Obligations.EmptyMessageIsZero : Prop :=
  crcRaw [] = 0xFFFFFFFF#32 ∧ crc32 [] = 0x00000000#32 ∧
  (∀ s : State, ∃ t, exec .reset s = .next t ∧ t.out.crcOut = crc32 []) ∧
  (∀ s : State, ∃ t, exec .init s = .next t ∧ t.out.crcOut = crc32 [])

/-! ### The table (42_crc_table.md) -/

/-- R65, R67: the printed entries are the computed ones, all 256. -/
def Obligations.PrintedTableIsTheTable : Prop :=
  printedEntries.length = 256 ∧ (∀ n : Byte, printedEntry n = tableEntry n) ∧
  (∀ n : Byte, tableEntry n = bytestep 0x00000000#32 n) ∧
  (List.range 9).map (fun k => bitstep^[k] 0x00000001#32) =
    [0x00000001#32, 0xEDB88320#32, 0x76DC4190#32, 0x3B6E20C8#32, 0x1DB71064#32, 0x0EDB8832#32,
     0x076DC419#32, 0xEE0E612C#32, 0x77073096#32] ∧
  tableEntry 0x01#8 = 0x77073096#32 ∧ tableEntry 0x80#8 = Config.poly

/-- R66: the table form of the byte step. -/
def Obligations.TableFormAgrees : Prop :=
  (∀ (c : Crc) (b : Byte), bytestep c b = bytestepTable tableEntry c b) ∧
  (∀ (c : Crc) (b : Byte), bytestepTable tableEntry c b =
    tableEntry ((c ^^^ b.setWidth 32).extractLsb' 0 8) ^^^ (c >>> 8)) ∧
  tableEntry 0xCE#8 = 0x7CDCEFB7#32 ∧ bytestepTable tableEntry 0xFFFFFFFF#32 0x31#8 = 0x7C231048#32 ∧
  tableEntry 0xD3#8 = 0x1FDA836E#32 ∧ bytestepTable tableEntry 0x12345678#32 0xAB#8 = 0x1FC8B738#32

/-- R69: the checks on the table; that entries differ is said through the top byte too. -/
def Obligations.TableChecks : Prop :=
  tableEntry 0x00#8 = 0x00000000#32 ∧
  [0x01#8, 0x02#8, 0x04#8, 0x08#8, 0x10#8, 0x20#8, 0x40#8, 0x80#8].map tableEntry =
    [0x77073096#32, 0xEE0E612C#32, 0x076DC419#32, 0x0EDB8832#32, 0x1DB71064#32, 0x3B6E20C8#32,
     0x76DC4190#32, 0xEDB88320#32] ∧
  (∀ a b : Byte, tableEntry (a ^^^ b) = tableEntry a ^^^ tableEntry b) ∧
  tableEntry 0xFF#8 = 0x2D02EF8D#32 ∧ Function.Injective tableEntry ∧
  Function.Injective (fun n : Byte => (tableEntry n).extractLsb' 24 8)

/-! ### Runs (41_commands.md section 3, 70_reset_and_hazards.md) -/

/-- R11, the invariant every step keeps, from EVERY state and for EVERY word (listed or free): `crc` is
`crc_raw` of the message in progress. -/
def Obligations.EveryStepKeepsTheMessageInvariant : Prop :=
  ∀ (s t : State) (m : Option Message), s.holdsMessage m → step s = .next t →
    t.holdsMessage (messageAfter m (decode s.sample.1))

/-- The invariant at the two starting states: after reset the empty message is in progress, at power-on
none is, whatever the value. -/
def Obligations.StartingStatesMeetTheInvariant : Prop :=
  State.reset.holdsMessage (some []) ∧ ∀ v : Crc, (State.powerOn v).holdsMessage none

/-- R27, R93: a run is the fold of the step function over the host's words, in their order; two runs
one after the other are the run of the joined words. -/
def Obligations.RunIsTheFoldOfTheWords : Prop :=
  (∀ (s : State) (ws : List InputWord),
    runWords s ws = .next { s with crc := ws.foldl nextCrc s.crc }) ∧
  (∀ (s t : State) (ws vs : List InputWord), runWords s ws = .next t →
    runWords s (ws ++ vs) = runWords t vs)

/-- R62: after a seed at position `j` and no seed later, `crc` and `crc_out` are those of the message;
what came before is irrelevant. -/
def Obligations.TraceCorrespondence : Prop :=
  (∀ (s : State) (before after : List InputWord) (w : InputWord) (b0 : Byte),
    decode w = .start b0 → noSeed after = true →
    ∃ t, runWords s (before ++ w :: after) = .next t ∧
      t.crc = crcRaw (b0 :: absorbed after) ∧ t.out.crcOut = crc32 (b0 :: absorbed after) ∧
      t.presented = s.presented) ∧
  (∀ (s : State) (before after : List InputWord) (w : InputWord),
    (decode w = .init ∨ decode w = .reset) → noSeed after = true →
    ∃ t, runWords s (before ++ w :: after) = .next t ∧
      t.crc = crcRaw (absorbed after) ∧ t.out.crcOut = crc32 (absorbed after) ∧
      t.presented = s.presented)

/-- R64: sampling after the `k`-th byte gives the CRC of the first `k` bytes, and the message may go on. -/
def Obligations.PrefixResults : Prop :=
  (∀ (s : State) (m : Message) (k : Nat), 1 ≤ k → k ≤ m.length →
    ∃ t, runWords s ((msgWords m).take k) = .next t ∧ t.out.crcOut = crc32 (m.take k) ∧
      ∃ u, runWords t ((msgWords m).drop k) = .next u ∧ u.out.crcOut = crc32 m) ∧
  [1, 2, 3, 4].map (fun k => crc32 ([0x49#8, 0x45#8, 0x4E#8, 0x44#8].take k)) =
    [0xDD0216B9#32, 0x66D453AC#32, 0x9C60B88A#32, 0xAE426082#32]

/-- R37: the pseudo-commands' expansions and what they leave on the output. -/
def Obligations.PseudoCommandResults : Prop :=
  (∀ (s : State) (os : List Operand), ∃ t, runWords s (Line.words (.msg os)) = .next t ∧
    t.out.crcOut = crc32 (os.map Operand.byte)) ∧
  (∀ (s : State) (os : List Operand), runWords s (Line.words (.msgi os)) =
    runWords s (Line.words (.msg os))) ∧
  (∀ os : List Operand, os ≠ [] →
    (Line.words (.msgi os)).length = (Line.words (.msg os)).length + 1) ∧
  Line.words (.msg []) = [encode .init] ∧ crc32 [] = 0x00000000#32 ∧
  (∀ (o : Operand) (os : List Operand), Line.words (.msg (o :: os)) =
    encode (.start o.byte) :: os.map (fun q => encode (.update q.byte))) ∧
  (∀ os : List Operand, Line.words (.msgi os) =
    encode .init :: os.map (fun q => encode (.update q.byte))) ∧
  Line.words .nop = Line.words .idle ∧
  (∀ (t0 t1 t2 t3 : Operand) (p : List Operand),
    Line.words (.chunkcrc t0 t1 t2 t3 p) = Line.words (.msg (t0 :: t1 :: t2 :: t3 :: p))) ∧
  (∀ s : State, runWords s (Line.words .nop) = .next s)

/-- R53: how the bytes are spread over steps does not matter; two word lists with the same commands
other than IDLE, in the same order, leave the same state. -/
def Obligations.IdlePlacementIsIrrelevant : Prop :=
  ∀ (s : State) (ws vs : List InputWord),
    (ws.map decode).filter (fun i => decide (i ≠ .idle)) =
      (vs.map decode).filter (fun i => decide (i ≠ .idle)) →
    runWords s ws = runWords s vs

/-- R84: with no seed between two messages the block computes the CRC of both joined, and nothing
signals it; the example. -/
def Obligations.MissingSeedJoinsMessages : Prop :=
  (∀ (s : State) (a b : Message), ∃ t,
    runWords s (msgWords a ++ b.map (fun d => encode (.update d))) = .next t ∧
    t.out.crcOut = crc32 (a ++ b)) ∧
  crc32 [0x61#8] = 0xE8B7BE43#32 ∧ crc32 [0x61#8, 0x62#8] = 0x9E83486D#32 ∧
  crc32 [0x62#8] = 0x71BEEFF9#32

/-- R86: the result stands from the last byte's step through every IDLE after it; one step earlier the
output is the CRC of the message less its last byte. -/
def Obligations.ResultStandsInItsWindow : Prop :=
  (∀ (s : State) (m : Message) (ws : List InputWord), onlyIdle ws = true →
    ∃ t, runWords s (msgWords m ++ ws) = .next t ∧ t.out.crcOut = crc32 m) ∧
  (∀ (s : State) (m : Message) (b c : Byte),
    ∃ t, runWords s ((msgWords (c :: m ++ [b])).dropLast) = .next t ∧ t.out.crcOut = crc32 (c :: m))

/-- R15, R50: a seeding command can load nothing but `INIT` or one byte absorbed into it, and any other
command keeps different running values different. -/
def Obligations.RunningValuesNeverMerge : Prop :=
  (∀ (s t : State) (w : InputWord), seeds (decode w) = true → step (s.present [w]) = .next t →
    t.crc = 0xFFFFFFFF#32 ∨ ∃ d, absorbedByte (decode w) = some d ∧ t.crc = bytestep 0xFFFFFFFF#32 d) ∧
  (∀ (s s' t t' : State) (w : InputWord), seeds (decode w) = false →
    step (s.present [w]) = .next t → step (s'.present [w]) = .next t' → t.crc = t'.crc →
    s.crc = s'.crc)
end

