-- ==== Sys2Proof/Laws/State.lean ====
section
/-! SUPPORT. One lemma per field per update of the state, so that no later proof unfolds a record. -/

namespace Sys2Proof.Machine

@[simp] theorem State.setCrc_crc (s : State) (v : Crc) : (s.setCrc v).crc = v := rfl
@[simp] theorem State.setCrc_presented (s : State) (v : Crc) :
    (s.setCrc v).presented = s.presented := rfl
@[simp] theorem State.setCrc_drawn (s : State) (v : Crc) : (s.setCrc v).drawn = s.drawn := rfl
@[simp] theorem State.setCrc_self (s : State) : s.setCrc s.crc = s := rfl
@[simp] theorem State.setCrc_setCrc (s : State) (u v : Crc) : (s.setCrc u).setCrc v = s.setCrc v := rfl

@[simp] theorem State.present_crc (s : State) (ws : List InputWord) : (s.present ws).crc = s.crc := rfl
@[simp] theorem State.present_presented (s : State) (ws : List InputWord) :
    (s.present ws).presented = ws ++ s.presented := rfl
@[simp] theorem State.present_drawn (s : State) (ws : List InputWord) :
    (s.present ws).drawn = s.drawn := rfl
@[simp] theorem State.present_nil (s : State) : s.present [] = s := rfl

/-- Presenting words and writing the register do not interfere. -/
theorem State.present_setCrc (s : State) (ws : List InputWord) (v : Crc) :
    (s.present ws).setCrc v = (s.setCrc v).present ws := rfl

/-- Words presented before others. -/
theorem State.present_append (s : State) (ws vs : List InputWord) :
    s.present (ws ++ vs) = (s.present vs).present ws := by
  simp [State.present]

@[simp] theorem State.reset_presented : State.reset.presented = [] := rfl
@[simp] theorem State.powerOn_crc (v : Crc) : (State.powerOn v).crc = v := rfl

end Sys2Proof.Machine
end

