-- ==== Sys2Proof/Laws/Ops.lean ====
section
/-! SUPPORT. One lemma per shared operation that says once everything it can do. -/

namespace Sys2Proof.Machine

/-- The register write always goes on, to exactly one state. -/
theorem loadCrc_next_iff (v : Crc) (s t : State) : loadCrc v s = .next t ↔ t = s.setCrc v := by
  simp [loadCrc, eq_comm]

/-- Sampling takes the first listed word. -/
@[simp] theorem State.sample_present_cons (s : State) (w : InputWord) (ws : List InputWord) :
    (s.present (w :: ws)).sample = (w, s.present ws) := rfl

/-- Sampling never touches the register. -/
@[simp] theorem State.sample_crc (s : State) : s.sample.2.crc = s.crc := by
  unfold State.sample
  split <;> rfl

/-- Everything sampling can do: take the first listed word, or draw a free one. -/
theorem State.sample_cases (s : State) :
    (∃ w ws, s.presented = w :: ws ∧ s.sample = (w, { s with presented := ws })) ∨
    (s.presented = [] ∧ s.sample = (Config.hostWord s.drawn, { s with drawn := s.drawn + 1 })) := by
  cases h : s.presented with
  | nil => right; simp [State.sample, h]
  | cons w ws => left; exact ⟨w, ws, rfl, by simp [State.sample, h]⟩

/-- One bit step with its test written as a mask: a shift, and the constant where bit 0 was set. -/
theorem bitstep_eq_xor (c : Crc) :
    bitstep c = (c >>> 1) ^^^ (if c.getLsbD 0 then Config.poly else 0#32) := by
  unfold bitstep
  split <;> simp

/-- A byte step is the eight bit steps of the byte XORed into the register. -/
theorem bytestep_eq_iterate (c : Crc) (b : Byte) : bytestep c b = bitstep^[8] (c ^^^ zext32 b) := rfl

end Sys2Proof.Machine
end

