-- ==== Sys2Proof/Laws/PerInstr.lean ====
section
/-! SUPPORT. Families of statements made per command (LAWS.json). -/

namespace Sys2Proof.Laws.RowEncoding

/-- The canonical word of a command is one its own row of R33 selects, is selected by no other row, and
sets no bit the command does not read (R34). -/
def Statement (i : Instr) : Prop :=
  rows.filter (fun r => r.selects (encode i)) = [rowOf i] ∧ encode i &&& ~~~(rowOf i).care = 0#11

theorem reset : Statement .reset := by unfold Statement; decide
theorem idle : Statement .idle := by unfold Statement; decide
theorem update (d : Byte) : Statement (.update d) := by
  revert d; unfold Statement; decide
theorem init : Statement .init := by unfold Statement; decide
theorem start (d : Byte) : Statement (.start d) := by
  revert d; unfold Statement; decide

end Sys2Proof.Laws.RowEncoding
end

