-- ==== Sys2Proof/Laws/Step.lean ====
section
/-! SUPPORT. What a command and a step can do, said once; every claim about runs cites these. -/

namespace Sys2Proof.Machine

/-- The register after a command, from the register before it. -/
def crcAfter (i : Instr) (c : Crc) : Crc :=
  match i with
  | .reset => Config.resetValue
  | .idle => c
  | .update d => bytestep c d
  | .init => Config.init
  | .start d => bytestep Config.init d

/-- Everything a command can do: one write of the register. -/
theorem exec_eq_setCrc (i : Instr) (s : State) : exec i s = .next (s.setCrc (crcAfter i s.crc)) := by
  cases i <;> rfl

/-- Everything a step can do. -/
theorem step_eq_setCrc (s : State) :
    step s = .next (s.sample.2.setCrc (crcAfter (decode s.sample.1) s.crc)) := by
  unfold step
  rw [exec_eq_setCrc, State.sample_crc]

/-- A step over a presented word. -/
theorem step_present_cons (s : State) (w : InputWord) (ws : List InputWord) :
    step (s.present (w :: ws)) = .next ((s.setCrc (crcAfter (decode w) s.crc)).present ws) := by
  rw [step_eq_setCrc]
  rfl

@[simp] theorem runWords_nil (s : State) : runWords s [] = .next s := rfl

/-- A run takes its first word in one step and goes on with the others. -/
theorem runWords_cons (s : State) (w : InputWord) (ws : List InputWord) :
    runWords s (w :: ws) = runWords (s.setCrc (crcAfter (decode w) s.crc)) ws := by
  show run (ws.length + 1) (s.present (w :: ws)) = _
  rw [run, step_present_cons]
  rfl

/-- The runs of Machine/Trace.lean are the runs of the host's interface. -/
theorem run_eq_core_run (k : Nat) (s : State) : run k s = Host.Core.run Sys2Proof.core k s := by
  induction k generalizing s with
  | zero => rfl
  | succ k ih =>
    have hr : run (k + 1) s = run k (s.sample.2.setCrc (crcAfter (decode s.sample.1) s.crc)) := by
      rw [run, step_eq_setCrc]
    have hs : Sys2Proof.core.step s =
        .next (s.sample.2.setCrc (crcAfter (decode s.sample.1) s.crc)) := step_eq_setCrc s
    have hc := Host.Core.run.eq_2 Sys2Proof.core s k
    rw [hs] at hc
    exact hr.trans ((ih _).trans hc.symm)

end Sys2Proof.Machine
end

