-- ==== Sys2Proof/Machine/Flags.lean ====
section
/-! DEFINITION. No flags: spec 10_state.md R14 gives the block no flag, condition code, predicate or
status output, so there is no flag computation to write and this file defines nothing. -/
end

