-- ==== Sys2Proof/Machine/Notation.lean ====
section
/-! DEFINITION. The text of the assembler notation (spec 30_encoding.md R36, R37): one command a line, an
operand `0xNN` or `'c'`, `.word` and a number, the pseudo-commands with their operand lists, and a
comment after `;`. No labels and no other directive. The block never reads it. What R36 leaves open of the
text is settled in notes/assumptions/9.md. -/

namespace Sys2Proof.Machine

/-- A token: a run of characters between separators, or a quoted character. -/
inductive Token where
  | word (cs : List Char)
  | quoted (c : Char)
  deriving DecidableEq, Repr

/-- The token in progress, if it has begun, before the tokens that follow. -/
def flush (acc : List Char) (rest : List Token) : List Token :=
  match acc with
  | [] => rest
  | c :: cs => .word (c :: cs) :: rest

/-- The tokens of a line: separated by spaces, tabs or commas; nothing after `;` is read. -/
def tokens (acc : List Char) (line : List Char) : List Token :=
  match line with
  | [] => flush acc []
  | '\'' :: c :: '\'' :: rest => flush acc (.quoted c :: tokens [] rest)
  | c :: rest =>
    if c = ';' then flush acc []
    else if c = ' ' ∨ c = ',' ∨ c = '\t' then flush acc (tokens [] rest)
    else tokens (acc ++ [c]) rest

/-- The sixteen hex digits in the order of their values, as R36 and the spec's literals write them. -/
def hexAlphabet : List Char := "0123456789ABCDEF".toList

/-- The value of a hex digit: its place in the alphabet. Either case is read
(DESIGN CHOICE: notes/assumptions/9.md). -/
def hexValue (c : Char) : Option Nat := hexAlphabet.idxOf? c.toUpper

/-- The number a run of hex digits writes, the most significant digit first; none where a character is
no hex digit. -/
def readHex (cs : List Char) : Option Nat :=
  cs.foldlM (fun value c => (hexValue c).map (16 * value + ·)) 0

/-- The number of a `.word` line: `0x` and one or more hex digits, no decimal. R36 says only that the
word is "written as its number", with `.word 0x7FF` as its one example, and settles neither the radix
nor the number of digits (DESIGN CHOICE: notes/assumptions/9.md). -/
def hexNumber (cs : List Char) : Option Nat :=
  match cs with
  | '0' :: 'x' :: d :: rest => readHex (d :: rest)
  | _ => none

/-- An operand: `0x` and two hex digits, or a quoted character. -/
def operandOf (t : Token) : Option Operand :=
  match t with
  | .quoted c => some (.chr c)
  | .word ['0', 'x', a, b] => (readHex [a, b]).map Operand.hex
  | .word _ => none

/-- Every token an operand. -/
def operandsOf (ts : List Token) : Option (List Operand) :=
  match ts with
  | [] => some []
  | t :: rest => (operandOf t).bind (fun o => (operandsOf rest).map (fun os => o :: os))

/-- The line a sequence of tokens writes; none where it writes none. -/
def lineOf (ts : List Token) : Option Line :=
  match ts with
  | [.word ['R', 'E', 'S', 'E', 'T']] => some .reset
  | [.word ['I', 'D', 'L', 'E']] => some .idle
  | [.word ['I', 'N', 'I', 'T']] => some .init
  | [.word ['N', 'O', 'P']] => some .nop
  | [.word ['U', 'P', 'D', 'A', 'T', 'E'], o] => (operandOf o).map Line.update
  | [.word ['S', 'T', 'A', 'R', 'T'], o] => (operandOf o).map Line.start
  | [.word ['.', 'w', 'o', 'r', 'd'], .word n] => (hexNumber n).map Line.word
  | .word ['M', 'S', 'G'] :: bs => (operandsOf bs).map Line.msg
  | .word ['M', 'S', 'G', 'I'] :: bs => (operandsOf bs).map Line.msgi
  | .word ['C', 'H', 'U', 'N', 'K', 'C', 'R', 'C'] :: bs =>
    match operandsOf bs with
    | some (t0 :: t1 :: t2 :: t3 :: p) => some (.chunkcrc t0 t1 t2 t3 p)
    | _ => none
  | _ => none

/-- The lines of a text. -/
def splitLines (acc : List Char) (text : List Char) : List (List Char) :=
  match text with
  | [] => [acc]
  | c :: rest => if c = '\n' then acc :: splitLines [] rest else splitLines (acc ++ [c]) rest

/-- The commands of the lines, lines that hold only a comment or nothing passed over. -/
def linesOf (ls : List (List Char)) : Option (List Line) :=
  match ls with
  | [] => some []
  | l :: rest =>
    match tokens [] l with
    | [] => linesOf rest
    | t :: ts => (lineOf (t :: ts)).bind (fun x => (linesOf rest).map (fun xs => x :: xs))

/-- A program's text to its input words, in the order of the steps. -/
def assembleText (text : List Char) : Option (List InputWord) :=
  (linesOf (splitLines [] text)).bind assemble

end Sys2Proof.Machine
end

