-- ==== Sys2Proof/Tests/Slice0.lean ====
section
/-! SUPPORT. Tests. Every expected value is the spec's: 95_test_vectors.md sections 3 and 4, or a word
written out from 30_encoding.md R30 and R33. Then one witness for each statement with hypotheses. -/

namespace Sys2Proof.Tests

open Sys2Proof.Machine Sys2Proof.Safety

/-- A state with this register value, whose next word is `w`. -/
def given (c : Crc) (w : InputWord) : State := { crc := c, presented := [w], drawn := 0 }

/-- The register after a step, if it goes on. -/
def crcOf (o : Outcome) : Option Crc :=
  match o with
  | .next t => some t.crc
  | .fault _ => none
  | .refused _ => none

/-- The outputs after a step, if it goes on. -/
def outOf (o : Outcome) : Option Outputs :=
  match o with
  | .next t => some t.out
  | .fault _ => none
  | .refused _ => none

/-! ### WellFormed: an ill-formed term for each check, refused -/

theorem test_hex_operand_too_wide : Line.wellFormed (.update (.hex 0x100)) = false := by decide
theorem test_start_operand_too_wide : Line.wellFormed (.start (.hex 256)) = false := by decide
theorem test_char_below_space : Line.wellFormed (.update (.chr '\t')) = false := by decide
theorem test_char_above_tilde : Line.wellFormed (.start (.chr '\x7f')) = false := by decide
theorem test_word_line_too_wide : Line.wellFormed (.word 0x800) = false := by decide
theorem test_msg_with_bad_byte : Line.wellFormed (.msg [.hex 1, .hex 0x1FF]) = false := by decide
theorem test_msgi_with_bad_byte : Line.wellFormed (.msgi [.chr 'a', .hex 256]) = false := by decide
theorem test_chunkcrc_with_bad_payload :
    Line.wellFormed (.chunkcrc (.chr 'I') (.chr 'E') (.chr 'N') (.chr 'D') [.hex 256]) = false := by
  decide
theorem test_program_with_bad_line : assemble [.reset, .word 2048] = none := by decide
theorem test_wide_number_is_no_word : decodeNat 0x800 = .error .tooWide := by rfl

/-! ### Decode: every command's word, bit by bit (`rst init valid data`) -/

theorem test_decode_reset : decode 0b1_0_0_00000000#11 = .reset := by decide
theorem test_decode_reset_all_ones : decode 0b1_1_1_11111111#11 = .reset := by decide
theorem test_decode_reset_with_valid : decode 0b1_0_1_00110001#11 = .reset := by decide
theorem test_decode_idle : decode 0b0_0_0_00000000#11 = .idle := by decide
theorem test_decode_idle_data_set : decode 0b0_0_0_11111111#11 = .idle := by decide
theorem test_decode_update : decode 0b0_0_1_10101011#11 = .update 0xAB#8 := by decide
theorem test_decode_init : decode 0b0_1_0_00000000#11 = .init := by decide
theorem test_decode_init_data_set : decode 0b0_1_0_10100101#11 = .init := by decide
theorem test_decode_start : decode 0b0_1_1_00110001#11 = .start 0x31#8 := by decide
theorem test_table_word_16_bits : decodeTableWord 16 0x1AB = some (.update 0xAB#8) := by decide
theorem test_table_word_too_wide : decodeTableWord 16 0x800 = none := by decide

/-! ### One step of each command from `crc = 0x12345678` (95_test_vectors.md section 4) -/

theorem test_reset_all_bits_set :
    outOf (step (given 0x12345678#32 0x7FF#11)) =
      some ⟨0x00000000#32, 0x00#8, 0x00#8, 0x00#8, 0x00#8⟩ := by decide
theorem test_reset_with_valid :
    crcOf (step (given 0x12345678#32 0x531#11)) = some 0xFFFFFFFF#32 := by decide
theorem test_idle_data_set :
    outOf (step (given 0x12345678#32 0x0FF#11)) =
      some ⟨0xEDCBA987#32, 0xED#8, 0xCB#8, 0xA9#8, 0x87#8⟩ := by decide
theorem test_update_AB :
    outOf (step (given 0x12345678#32 0x1AB#11)) =
      some ⟨0xE03748C7#32, 0xE0#8, 0x37#8, 0x48#8, 0xC7#8⟩ := by decide
theorem test_update_zero_byte :
    crcOf (step (given 0x12345678#32 0x100#11)) = some 0x5ECCCD58#32 := by decide
theorem test_init_data_set :
    crcOf (step (given 0x12345678#32 0x2A5#11)) = some 0xFFFFFFFF#32 := by decide
theorem test_start_31 :
    outOf (step (given 0x12345678#32 0x331#11)) =
      some ⟨0x83DCEFB7#32, 0x83#8, 0xDC#8, 0xEF#8, 0xB7#8⟩ := by decide
theorem test_start_FF :
    crcOf (step (given 0x00000000#32 0x3FF#11)) = some 0x00FFFFFF#32 := by decide
theorem test_word_placed_after_reset :
    crcOf (step (State.reset.withFetchWord 16 0x149)) = some 0x22FDE946#32 := by decide

/-! ### The datapath and its other forms (95_test_vectors.md section 3) -/

theorem test_bitstep_top_bit_from_bit_zero : bitstep 0xDB710641#32 = 0x80000000#32 := by decide
theorem test_bitstep_three : bitstep 0x00000003#32 = 0xEDB88321#32 := by decide
theorem test_bytestep_general : bytestep 0xDEADBEEF#32 0x00#8 = 0x306B5257#32 := by decide
theorem test_bytestep_second_byte : bytestep 0x7C231048#32 0x32#8 = 0xB0ACBB32#32 := by decide
theorem test_serial_general : bytestepSerial 0x12345678#32 0xAB#8 = 0x1FC8B738#32 := by decide
theorem test_table_general :
    bytestepTable tableEntry 0xDEADBEEF#32 0x00#8 = 0x306B5257#32 := by decide
theorem test_printed_entry_7A : printedEntry 0x7A#8 = tableEntry 0x7A#8 := by decide
theorem test_bitstep_inv : bitstepInv 0x92477CDF#32 = 0xFFFFFFFF#32 := by decide
theorem test_letter_a : crc32 [0x61#8] = 0xE8B7BE43#32 := by decide
theorem test_iend_chunk : crc32 (chunkMessage 0x49#8 0x45#8 0x4E#8 0x44#8 []) = 0xAE426082#32 := by
  decide +kernel
theorem test_wire_order : toWire 0x74774CBB#32 = [0x74#8, 0x77#8, 0x4C#8, 0xBB#8] := by decide
theorem test_from_wire : fromWire 0x74#8 0x77#8 0x4C#8 0xBB#8 = 0x74774CBB#32 := by decide
theorem test_check_accepts_stored : check 0xAE426082#32 (given 0x51BD9F7D#32 0#11) = true := by decide
theorem test_check_rejects_uninverted : check 0x51BD9F7D#32 (given 0x51BD9F7D#32 0#11) = false := by
  decide
theorem test_assemble_P5 :
    assemble [.start (.chr 'a'), .msg [.chr 'a', .chr 'b', .chr 'c']] =
      some [0x361#11, 0x361#11, 0x162#11, 0x163#11] := by decide
theorem test_assemble_P3_words :
    assemble [.start (.hex 0x49), .word 0x0FF, .nop, .msgi [], .msg []] =
      some [0x349#11, 0x0FF#11, 0x000#11, 0x200#11, 0x200#11] := by decide

/-- The lines R36 prints, with a comment, and a quoted separator. -/
theorem test_text_of_R36 :
    assembleText "RESET            ; w = 0x400\nUPDATE 0xAb\n.word 0x7FF\nSTART ';'".toList =
      some [0x400#11, 0x1AB#11, 0x7FF#11, 0x33B#11] := by decide +kernel
/-- The pseudo-commands of R37. -/
theorem test_text_of_R37 :
    assembleText "\nCHUNKCRC 'I' 'E' 'N' 'D', 0x00\nMSG\nNOP ; wait".toList =
      some [0x349#11, 0x145#11, 0x14E#11, 0x144#11, 0x100#11, 0x200#11, 0x000#11] := by decide +kernel
/-- A `.word` number is hexadecimal (log entry 9): `0x1FF` is read, `511` is not. -/
theorem test_text_word_number :
    assembleText ".word 0x1fF".toList = some [0x1FF#11] ∧ assembleText ".word 511".toList = none := by
  decide +kernel
/-- An operand has two hex digits, and there are no labels. -/
theorem test_text_refused :
    assembleText "UPDATE 0x1".toList = none ∧ assembleText "here: IDLE".toList = none := by
  decide +kernel

/-! ### Witnesses: concrete inputs meeting the hypotheses of each statement that has some -/

/-- DecodeOfEncode, at the last operand value. -/
theorem witness_DecodeOfEncode : Instr.wellFormed (.start 0xFF#8) = true := by decide

/-- DontCareBitsAreIgnored: one pair of words per clause. -/
theorem witness_DontCareBitsAreIgnored :
    2047 < 2048 ∧
    (0x2A5#11 &&& (rowOf (decode 0x2A5#11)).care = 0x25A#11 &&& (rowOf (decode 0x2A5#11)).care) ∧
    ((0x7FF#11).getLsbD 10 = true ∧ (0x400#11).getLsbD 10 = true) ∧
    (0x0FF#11).extractLsb' 8 3 = 0b000#3 ∧ (0x2A5#11).extractLsb' 8 3 = 0b010#3 := by decide

/-- NotationLinesAssemble: the ends of each range. -/
theorem witness_NotationLinesAssemble :
    (0xFF ≤ 0xFF ∧ 0x20 ≤ ' '.toNat ∧ ' '.toNat ≤ 0x7E ∧ 0x20 ≤ '~'.toNat ∧ '~'.toNat ≤ 0x7E) ∧
    2047 < 2048 ∧ [Line.word 0x7FF].all Line.wellFormed = true ∧
    [Line.update (.chr '~')].all Line.wellFormed = true := by decide

theorem witness_StepRunsThePresentedWord :
    (given 0x12345678#32 0x7FF#11).presented = 0x7FF#11 :: [] := by decide

theorem witness_StepWithoutWordDrawsFreeWord : State.reset.presented = [] := by decide

/-- PlacedWordIsRun: the largest word at the table's own width. -/
theorem witness_PlacedWordIsRun : 2047 < 2048 ∧ 11 ≤ 11 := by decide

theorem witness_CommandsWriteOnlyCrc :
    exec .idle State.reset = .next State.reset ∧
    exec (.update 0x00#8) (State.powerOn 0#32) =
      .next ((State.powerOn 0#32).setCrc (bytestep 0#32 0x00#8)) := ⟨rfl, rfl⟩

/-- ResetLoadsTheResetValue, with both a canonical and a non-canonical word. -/
theorem witness_ResetLoadsTheResetValue :
    (0x7FF#11 &&& 0x400#11 = 0x400#11 ∧ 0x400#11 &&& 0x400#11 = 0x400#11) ∧
    exec .reset State.reset = .next (State.reset.setCrc Config.resetValue) :=
  ⟨by decide, rfl⟩

theorem witness_IdleHoldsTheState :
    0x0FF#11 &&& 0x700#11 = 0x000#11 ∧ ∀ w ∈ [0x000#11, 0x0FF#11], w &&& 0x700#11 = 0x000#11 := by
  decide

/-- UpdateAbsorbsTheByte: an UPDATE word, a state with a message in progress, and a command that is no
UPDATE. -/
theorem witness_UpdateAbsorbsTheByte :
    0x1FF#11 &&& 0x700#11 = 0x100#11 ∧ State.reset.crc = crcRaw [] ∧
    ∀ d, Instr.start 0x31#8 ≠ .update d :=
  ⟨by decide, rfl, fun _ h => by cases h⟩

theorem witness_InitSeedsTheRegister :
    (0x2A5#11 &&& 0x700#11 = 0x200#11 ∧ 0x200#11 &&& 0x700#11 = 0x200#11) ∧
    exec .init State.reset = .next (State.reset.setCrc Config.init) := ⟨by decide, rfl⟩

theorem witness_StartSeedsThenAbsorbs :
    0x331#11 &&& 0x700#11 = 0x300#11 ∧
    exec (.start 0x31#8) State.reset = .next (State.reset.setCrc (bytestep Config.init 0x31#8)) :=
  ⟨by decide, rfl⟩

theorem witness_ResetState : (0x531#11).getLsbD 10 = true := by decide

/-- SeedErasesPowerOnValue, and the seeding words of TraceCorrespondence and RunningValuesNeverMerge. -/
theorem witness_SeedErasesPowerOnValue :
    seeds (decode 0x400#11) = true ∧ seeds (decode 0x2A5#11) = true ∧
    seeds (decode 0x331#11) = true := by decide

theorem witness_HoldingResetKeepsTheResetState :
    [0x7FF#11, 0x400#11] ≠ [] ∧ ∀ w ∈ [0x7FF#11, 0x400#11], w.getLsbD 10 = true := by decide

/-- The bounds of CrcOutInvertsEveryBit (31), PolyIsTheReflectedGenerator (31), BitstepBitByBit (30) and
BitSerialFormAgrees (8). -/
theorem witness_bit_bounds : 31 < 32 ∧ 30 ≤ 30 ∧ 8 ≤ 8 := by decide

theorem witness_LinearOverGF2 : [0x49#8, 0x45#8].length = [0x48#8, 0x45#8].length := by decide

/-- SingleBitFlipIsDetected and ConsumerCheckRejectsOneFlip: the last bit of the last byte, and of the
stored value. -/
theorem witness_SingleBitFlipIsDetected :
    3 < [0x49#8, 0x45#8, 0x4E#8, 0x44#8].length ∧ 7 < 8 ∧ 31 < 32 ∧
    flipBit [0x49#8, 0x45#8, 0x4E#8, 0x44#8] 3 7 = [0x49#8, 0x45#8, 0x4E#8, 0xC4#8] := by decide

/-- EveryStepKeepsTheMessageInvariant: a message in progress and a step that goes on. -/
theorem witness_EveryStepKeepsTheMessageInvariant :
    (State.reset.present [0x149#11]).holdsMessage (some []) ∧
    step (State.reset.present [0x149#11]) =
      .next (State.reset.setCrc (bytestep State.reset.crc 0x49#8)) := by
  refine ⟨fun bs h => ?_, rfl⟩
  cases h
  rfl

theorem witness_RunIsTheFoldOfTheWords :
    runWords State.reset [0x000#11] = .next State.reset := rfl

/-- TraceCorrespondence, a word of each seeding command and words with no seed after it. -/
theorem witness_TraceCorrespondence :
    decode 0x349#11 = .start 0x49#8 ∧ decode 0x2A5#11 = .init ∧ decode 0x7FF#11 = .reset ∧
    noSeed [0x0FF#11, 0x145#11, 0x000#11] = true ∧
    absorbed [0x0FF#11, 0x145#11, 0x000#11] = [0x45#8] := by decide

/-- PrefixResults, at both ends of the range. -/
theorem witness_PrefixResults :
    (1 ≤ 1 ∧ 1 ≤ [0x49#8, 0x45#8].length) ∧ (1 ≤ 2 ∧ 2 ≤ [0x49#8, 0x45#8].length) := by decide

theorem witness_PseudoCommandResults : [Operand.hex 0x61] ≠ [] := by decide

theorem witness_IdlePlacementIsIrrelevant :
    ([0x349#11, 0x0FF#11, 0x145#11].map decode).filter (fun i => decide (i ≠ .idle)) =
      ([0x349#11, 0x145#11, 0x000#11].map decode).filter (fun i => decide (i ≠ .idle)) := by decide

theorem witness_ResultStandsInItsWindow : onlyIdle [0x000#11, 0x05A#11] = true := by decide

/-- RunningValuesNeverMerge: a seeding word and a step over it, and a word that seeds nothing with two
steps over it that end equal. -/
theorem witness_RunningValuesNeverMerge :
    (seeds (decode 0x200#11) = true ∧
      step ((State.powerOn 5#32).present [0x200#11]) =
        .next ((State.powerOn 5#32).setCrc Config.init)) ∧
    (seeds (decode 0x000#11) = false ∧
      step (State.reset.present [0x000#11]) = .next State.reset ∧
      step ((State.powerOn 0xFFFFFFFF#32).present [0x000#11]) =
        .next (State.powerOn 0xFFFFFFFF#32) ∧
      State.reset.crc = (State.powerOn 0xFFFFFFFF#32).crc) :=
  ⟨⟨by decide, rfl⟩, by decide, rfl, rfl, rfl⟩

end Sys2Proof.Tests
end

/-! PROOFS. The state (spec 10_state.md): the message invariant, the frame of a command, the reset and
power-on values, and which running values a step keeps apart. -/

namespace Sys2Proof.Machine

/-! ### What a command and a step leave, as inversions -/

theorem exec_next_iff (i : Instr) (s t : State) :
    exec i s = .next t ↔ t = s.setCrc (crcAfter i s.crc) := by
  simp [exec_eq_setCrc, eq_comm]

/-- The register after a step, whichever way its word was sampled. -/
theorem crc_of_step {s t : State} (h : step s = .next t) :
    t.crc = crcAfter (decode s.sample.1) s.crc := by
  rw [step_eq_setCrc] at h
  cases h
  rfl

theorem crc_of_step_present {s t : State} {w : InputWord} (h : step (s.present [w]) = .next t) :
    t.crc = crcAfter (decode w) s.crc := by
  simpa using crc_of_step h

/-! ### The message in progress (R11, R45) -/

@[simp] theorem crcRaw_nil : crcRaw [] = Config.init := rfl

@[simp] theorem crcRaw_singleton (d : Byte) : crcRaw [d] = bytestep Config.init d := rfl

@[simp] theorem crcRaw_append_singleton (m : Message) (d : Byte) :
    crcRaw (m ++ [d]) = bytestep (crcRaw m) d := by
  simp [crcRaw, crcFrom]

@[simp] theorem State.holdsMessage_none (s : State) : s.holdsMessage none := by
  simp [State.holdsMessage]

@[simp] theorem State.holdsMessage_some (s : State) (bs : Message) :
    s.holdsMessage (some bs) ↔ s.crc = crcRaw bs := by
  simp [State.holdsMessage]

/-- Writing the register as a command does carries the invariant from the message before the command to
the message after it. -/
theorem State.holdsMessage_messageAfter {s t : State} {m : Option Message} (i : Instr)
    (hs : s.holdsMessage m) (ht : t.crc = crcAfter i s.crc) :
    t.holdsMessage (messageAfter m i) := by
  cases i with
  | reset => exact (t.holdsMessage_some []).mpr ht
  | idle =>
    have hcrc : t.crc = s.crc := ht
    intro bs hbs
    rw [hcrc, hs bs hbs]
  | update d =>
    cases m with
    | none => exact t.holdsMessage_none
    | some bs =>
      have hcrc : s.crc = crcRaw bs := (s.holdsMessage_some bs).mp hs
      have hnew : t.crc = bytestep s.crc d := ht
      refine (t.holdsMessage_some (bs ++ [d])).mpr ?_
      rw [hnew, hcrc, crcRaw_append_singleton]
  | init => exact (t.holdsMessage_some []).mpr ht
  | start d => exact (t.holdsMessage_some [d]).mpr ht

/-- Settles O42: a step writes the register as its command does, and each command carries the
invariant along. -/
theorem everyStepKeepsTheMessageInvariant : Obligations.EveryStepKeepsTheMessageInvariant :=
  fun _ _ _ hs hstep => State.holdsMessage_messageAfter _ hs (crc_of_step hstep)

/-- Settles O43: the reset value is the seed, and the invariant claims nothing where no message is in
progress. -/
theorem startingStatesMeetTheInvariant : Obligations.StartingStatesMeetTheInvariant :=
  ⟨(State.reset.holdsMessage_some []).mpr rfl, fun v => (State.powerOn v).holdsMessage_none⟩

/-! ### The frame of a command (R18) -/

/-- Settles O13: a command is one write of the register, and IDLE writes back what it read. -/
theorem commandsWriteOnlyCrc : Obligations.CommandsWriteOnlyCrc := by
  intro i s t h
  obtain rfl := (exec_next_iff i s t).mp h
  refine ⟨rfl, rfl, ?_⟩
  rintro rfl
  rfl

/-! ### Reset and power-on (R19) -/

theorem decode_of_rst {w : InputWord} (h : w.getLsbD 10 = true) : decode w = .reset :=
  if_pos h

/-- With every bit of the register set, every output bit is zero. -/
theorem State.out_of_crc_allOnes {s : State} (h : s.crc = 0xFFFFFFFF#32) :
    s.out = ⟨0x00000000#32, 0x00#8, 0x00#8, 0x00#8, 0x00#8⟩ := by
  have hout : s.crcOut = 0x00000000#32 := by rw [State.crcOut, h]; decide
  simp [State.out, hout, wireByte]

/-- Settles O21: a word with `rst` set decodes to RESET, which loads the reset value, and the outputs are
functions of the register alone. -/
theorem resetState : Obligations.ResetState := by
  refine ⟨fun s w hw => ?_, rfl, rfl, fun v => ⟨rfl, rfl⟩⟩
  refine ⟨s.setCrc Config.resetValue, ?_, rfl, State.out_of_crc_allOnes rfl⟩
  rw [step_present_cons, decode_of_rst hw]
  rfl

/-! ### Running values are kept apart (R15, R50) -/

/-- The top bit after a bit step tells which of the two branches was taken (R50). -/
theorem bitstep_getLsbD_31 (c : Crc) : (bitstep c).getLsbD 31 = c.getLsbD 0 := by
  rw [bitstep_eq_xor]
  cases c.getLsbD 0 <;> simp [Config.poly]

/-- A shift right loses bit 0 only, so shifting back and setting bit 0 again restores the value. -/
theorem shiftLeft_ushiftRight_or_bit0 (c : Crc) :
    ((c >>> 1) <<< 1) ||| (if c.getLsbD 0 then 1#32 else 0#32) = c := by
  ext i hi
  cases i with
  | zero => cases h : c.getLsbD 0 <;> simpa using h.symm
  | succ i => cases c.getLsbD 0 <;> simp [hi, Nat.add_comm]

/-- `bitstepInv` undoes a bit step (R50). -/
theorem bitstepInv_bitstep (c : Crc) : bitstepInv (bitstep c) = c := by
  have hback := shiftLeft_ushiftRight_or_bit0 c
  unfold bitstepInv
  rw [bitstep_getLsbD_31, bitstep_eq_xor]
  cases h : c.getLsbD 0 with
  | false =>
    rw [h] at hback
    simpa using hback
  | true =>
    rw [h] at hback
    simpa [BitVec.xor_assoc] using hback

theorem bitstep_injective : Function.Injective bitstep :=
  Function.LeftInverse.injective bitstepInv_bitstep

/-- Absorbing the same byte keeps different running values different (R50). -/
theorem bytestep_left_injective (b : Byte) : Function.Injective (fun c => bytestep c b) :=
  fun _ _ h => (BitVec.xor_left_inj _).mp (bitstep_injective.iterate 8 h)

/-- A command that seeds leaves the seed, or the seed with the command's own byte absorbed (R15). -/
theorem crcAfter_of_seeds {i : Instr} (hi : seeds i = true) (c : Crc) :
    crcAfter i c = Config.init ∨
      ∃ d, absorbedByte i = some d ∧ crcAfter i c = bytestep Config.init d := by
  cases i with
  | reset => exact .inl rfl
  | idle => cases hi
  | update d => cases hi
  | init => exact .inl rfl
  | start d => exact .inr ⟨d, rfl, rfl⟩

/-- A command that does not seed keeps different running values different (R50). -/
theorem crcAfter_injective_of_not_seeds {i : Instr} (hi : seeds i = false) :
    Function.Injective (crcAfter i) := by
  cases i with
  | reset => cases hi
  | idle => exact Function.injective_id
  | update d => exact bytestep_left_injective d
  | init => cases hi
  | start d => cases hi

/-- Settles O51: the two kinds of command, seeding and not, at the register a step leaves. -/
theorem runningValuesNeverMerge : Obligations.RunningValuesNeverMerge := by
  refine ⟨fun s t w hw hstep => ?_, fun s s' t t' w hw hstep hstep' heq => ?_⟩
  · rw [crc_of_step_present hstep]
    exact crcAfter_of_seeds hw s.crc
  · rw [crc_of_step_present hstep, crc_of_step_present hstep'] at heq
    exact crcAfter_injective_of_not_seeds hw heq

end Sys2Proof.Machine

/-! PROOFS. Runs over the host's words (spec 20_memory.md R27, 41_commands.md R93): R63's next-value
function is decode followed by the command's register write, and a run folds it over the words. -/

namespace Sys2Proof.Machine

/-- The tests R63 prints are those of the decode (R31), and under each stands the value the decoded
command writes. -/
theorem nextCrc_eq_crcAfter_decode (c : Crc) (w : InputWord) :
    nextCrc c w = crcAfter (decode w) c := by
  unfold nextCrc decode InputWord.rst InputWord.op InputWord.data
  split_ifs <;> rfl

/-- A run writes the register once per word, by R63's function, and touches nothing else. -/
theorem runWords_eq_setCrc_foldl (s : State) (ws : List InputWord) :
    runWords s ws = .next (s.setCrc (ws.foldl nextCrc s.crc)) := by
  induction ws generalizing s with
  | nil => rfl
  | cons w ws ih =>
    rw [runWords_cons, ih, State.setCrc_crc, State.setCrc_setCrc, List.foldl_cons,
      nextCrc_eq_crcAfter_decode]

theorem runWords_next_iff (s t : State) (ws : List InputWord) :
    runWords s ws = .next t ↔ t = s.setCrc (ws.foldl nextCrc s.crc) := by
  simp [runWords_eq_setCrc_foldl, eq_comm]

/-- A run over joined lists is one run after the other. -/
theorem runWords_append {s t : State} {ws : List InputWord} (h : runWords s ws = .next t)
    (vs : List InputWord) : runWords s (ws ++ vs) = runWords t vs := by
  obtain rfl := (runWords_next_iff s t ws).mp h
  rw [runWords_eq_setCrc_foldl, runWords_eq_setCrc_foldl, List.foldl_append, State.setCrc_crc,
    State.setCrc_setCrc]

/-- Settles O44: induction over the words gives the fold, and the fold over joined lists splits where
they join. -/
theorem runIsTheFoldOfTheWords : Obligations.RunIsTheFoldOfTheWords :=
  ⟨runWords_eq_setCrc_foldl, fun _ _ _ vs h => runWords_append h vs⟩

end Sys2Proof.Machine

/-! PROOFS. The encoding (spec 30_encoding.md): a word is its four fields, its command depends on the
fields its row reads, and encode, the command map and the assembler lines are read off the fields. -/

namespace Sys2Proof

open Sys2Proof.Machine

/-! ### The fields of a word (R30) -/

namespace InputWord

/-- Bit by bit, a word is its data below `valid`, `init` and `rst`. -/
theorem getLsbD_ofFields (r i v : Bool) (d : Byte) {k : Nat} (hk : k < 11) :
    (ofFields r i v d).getLsbD k =
      if k < 8 then d.getLsbD k else if k = 8 then v else if k = 9 then i else r := by
  simp only [ofFields, BitVec.getLsbD_append, BitVec.getLsbD_ofBool]
  by_cases h : k < 8
  · simp [h]
  · obtain rfl | rfl | rfl : k = 8 ∨ k = 9 ∨ k = 10 := by omega
    all_goals simp

@[simp] theorem rst_ofFields (r i v : Bool) (d : Byte) : (ofFields r i v d).rst = r :=
  getLsbD_ofFields r i v d (k := 10) (by decide)

@[simp] theorem init_ofFields (r i v : Bool) (d : Byte) : (ofFields r i v d).init = i :=
  getLsbD_ofFields r i v d (k := 9) (by decide)

@[simp] theorem valid_ofFields (r i v : Bool) (d : Byte) : (ofFields r i v d).valid = v :=
  getLsbD_ofFields r i v d (k := 8) (by decide)

@[simp] theorem data_ofFields (r i v : Bool) (d : Byte) : (ofFields r i v d).data = d :=
  BitVec.extractLsb'_append_eq_right

/-- The three control bits of a word, as one value. -/
theorem extractLsb'_control_ofFields (r i v : Bool) (d : Byte) :
    (ofFields r i v d).extractLsb' 8 3 = BitVec.ofBool r ++ BitVec.ofBool i ++ BitVec.ofBool v :=
  BitVec.extractLsb'_append_eq_left

/-- `op` is the low two of the control bits. -/
@[simp] theorem op_ofFields (r i v : Bool) (d : Byte) :
    (ofFields r i v d).op = BitVec.ofBool i ++ BitVec.ofBool v := by
  refine BitVec.eq_of_getLsbD_eq fun k hk => ?_
  rw [op, BitVec.getLsbD_extractLsb', getLsbD_ofFields r i v d (by omega), BitVec.getLsbD_append]
  obtain rfl | rfl : k = 0 ∨ k = 1 := by omega
  all_goals simp

/-- The number of a word from its fields. -/
theorem toNat_ofFields (r i v : Bool) (d : Byte) :
    (ofFields r i v d).toNat = r.toNat * 1024 + i.toNat * 512 + v.toNat * 256 + d.toNat := by
  simp only [ofFields, BitVec.toNat_append, BitVec.toNat_ofBool]
  rw [← Nat.shiftLeft_add_eq_or_of_lt d.isLt, ← Nat.shiftLeft_add_eq_or_of_lt v.toNat_lt,
    ← Nat.shiftLeft_add_eq_or_of_lt i.toNat_lt]
  simp only [Nat.shiftLeft_eq]
  omega

/-- Every word is made of its fields. -/
theorem ofFields_fields (w : InputWord) : ofFields w.rst w.init w.valid w.data = w := by
  refine BitVec.eq_of_getLsbD_eq fun k hk => ?_
  rw [getLsbD_ofFields _ _ _ _ hk]
  split_ifs with h8 hvalid hinit
  · simp [data, h8]
  · rw [hvalid, valid]
  · rw [hinit, init]
  · rw [rst, show k = 10 by omega]

theorem ofFields_inj {r i v r' i' v' : Bool} {d d' : Byte} :
    ofFields r i v d = ofFields r' i' v' d' ↔ r = r' ∧ i = i' ∧ v = v' ∧ d = d' := by
  constructor
  · intro h
    exact ⟨by simpa using congrArg rst h, by simpa using congrArg init h,
      by simpa using congrArg valid h, by simpa using congrArg data h⟩
  · rintro ⟨rfl, rfl, rfl, rfl⟩
    rfl

theorem ofFields_and_ofFields (r i v r' i' v' : Bool) (d d' : Byte) :
    ofFields r i v d &&& ofFields r' i' v' d' =
      ofFields (r && r') (i && i') (v && v') (d &&& d') := by
  refine BitVec.eq_of_getLsbD_eq fun k hk => ?_
  simp only [BitVec.getLsbD_and, getLsbD_ofFields _ _ _ _ hk]
  split_ifs <;> rfl

end InputWord

/-- Settles O6: a word's number, and each field read back from the concatenation. -/
theorem wordOfFields : Obligations.WordOfFields := fun rst init valid data =>
  ⟨InputWord.toNat_ofFields rst init valid data, InputWord.rst_ofFields rst init valid data,
    InputWord.init_ofFields rst init valid data, InputWord.valid_ofFields rst init valid data,
    InputWord.op_ofFields rst init valid data, InputWord.data_ofFields rst init valid data⟩

open InputWord

/-! ### Decode and encode on the fields (R31, R34) -/

@[simp] theorem decode_ofFields_reset (i v : Bool) (d : Byte) :
    decode (ofFields true i v d) = .reset := by
  simp [decode]

@[simp] theorem decode_ofFields_idle (d : Byte) : decode (ofFields false false false d) = .idle := by
  simp [decode]

@[simp] theorem decode_ofFields_update (d : Byte) :
    decode (ofFields false false true d) = .update d := by
  simp [decode]

@[simp] theorem decode_ofFields_init (d : Byte) : decode (ofFields false true false d) = .init := by
  simp [decode]

@[simp] theorem decode_ofFields_start (d : Byte) :
    decode (ofFields false true true d) = .start d := by
  simp [decode]

/-- Every word falls under one of the five rows of R33, with the fields its row leaves free. -/
theorem InputWord.rowCases {motive : InputWord → Prop}
    (reset : ∀ i v d, motive (ofFields true i v d))
    (idle : ∀ d, motive (ofFields false false false d))
    (update : ∀ d, motive (ofFields false false true d))
    (init : ∀ d, motive (ofFields false true false d))
    (start : ∀ d, motive (ofFields false true true d)) (w : InputWord) : motive w := by
  rw [← ofFields_fields w]
  cases w.rst with
  | true => exact reset _ _ _
  | false =>
    cases w.init <;> cases w.valid
    · exact idle _
    · exact update _
    · exact init _
    · exact start _

theorem encode_reset : encode .reset = ofFields true false false 0 := rfl

theorem encode_idle : encode .idle = ofFields false false false 0 := rfl

theorem encode_init : encode .init = ofFields false true false 0 := rfl

/-- An operand is OR-ed into the eight bits below a row's pattern. -/
theorem append_zero_or_setWidth (c : BitVec 3) (d : Byte) :
    (c ++ 0#8) ||| d.setWidth 11 = c ++ d := by
  have hd : d.setWidth 11 = 0#3 ++ d := BitVec.setWidth_eq_append (by decide)
  rw [hd, BitVec.or_append, BitVec.or_zero, BitVec.zero_or]

theorem encode_update (d : Byte) : encode (.update d) = ofFields false false true d :=
  append_zero_or_setWidth 1#3 d

theorem encode_start (d : Byte) : encode (.start d) = ofFields false true true d :=
  append_zero_or_setWidth 3#3 d

/-- A command survives being encoded and decoded, whatever its operand. -/
@[simp] theorem decode_encode (i : Instr) : decode (encode i) = i := by
  cases i with
  | reset => rw [encode_reset, decode_ofFields_reset]
  | idle => rw [encode_idle, decode_ofFields_idle]
  | update d => rw [encode_update, decode_ofFields_update]
  | init => rw [encode_init, decode_ofFields_init]
  | start d => rw [encode_start, decode_ofFields_start]

/-- Settles O2: the fields of a canonical word are the command's own, and decode reads them back. -/
theorem decodeOfEncode : Obligations.DecodeOfEncode := fun i _ => decode_encode i

/-- Settles O1: fixed words. -/
theorem writtenWordsDecode : Obligations.WrittenWordsDecode := by
  unfold Obligations.WrittenWordsDecode
  decide

/-! ### The masks of the command map (R33) -/

/-- The mask of RESET keeps `rst` alone. -/
theorem ofFields_and_rstMask (r i v : Bool) (d : Byte) :
    ofFields r i v d &&& 0x400#11 = ofFields r false false 0 := by
  show ofFields r i v d &&& ofFields true false false 0 = _
  simp [ofFields_and_ofFields]

/-- The mask of the other rows keeps the three control bits. -/
theorem ofFields_and_controlMask (r i v : Bool) (d : Byte) :
    ofFields r i v d &&& 0x700#11 = ofFields r i v 0 := by
  show ofFields r i v d &&& ofFields true true true 0 = _
  simp [ofFields_and_ofFields]

/-- Re-encoding a decoded word clears exactly the bits its row does not read (R34). -/
theorem encode_decode (w : InputWord) : encode (decode w) = w &&& (rowOf (decode w)).care := by
  induction w using InputWord.rowCases with
  | reset i v d =>
    rw [decode_ofFields_reset, encode_reset]
    exact (ofFields_and_rstMask true i v d).symm
  | idle d =>
    rw [decode_ofFields_idle, encode_idle]
    exact (ofFields_and_controlMask false false false d).symm
  | update d =>
    rw [decode_ofFields_update, encode_update]
    exact BitVec.and_allOnes.symm
  | init d =>
    rw [decode_ofFields_init, encode_init]
    exact (ofFields_and_controlMask false true false d).symm
  | start d =>
    rw [decode_ofFields_start, encode_start]
    exact BitVec.and_allOnes.symm

/-- Settles O3: by the row of the word, whose care bits are one of the two masks or all eleven bits. -/
theorem encodeOfDecodeIsCanonical : Obligations.EncodeOfDecodeIsCanonical := encode_decode

/-! ### Every word has exactly one row (R33) -/

theorem rowOf_mem_rows (i : Instr) : rowOf i ∈ rows := by
  cases i <;> simp [rows, rowOf]

/-- A row reads the bits of its mask. -/
theorem care_and_mask_of_mem_rows {r : Row} (hr : r ∈ rows) : r.care &&& r.mask = r.mask := by
  revert r
  decide

theorem rowReset_selects (r i v : Bool) (d : Byte) : rowReset.selects (ofFields r i v d) = r := by
  show decide (ofFields r i v d &&& 0x400#11 = 0x400#11) = r
  rw [ofFields_and_rstMask]
  cases r <;> rfl

/-- A row other than RESET's selects by the three control bits its pattern sets. -/
theorem selects_of_controlMask {row : Row} {r' i' v' : Bool} (hmask : row.mask = 0x700#11)
    (hpattern : row.pattern = ofFields r' i' v' 0) (r i v : Bool) (d : Byte) :
    row.selects (ofFields r i v d) = decide (r = r' ∧ i = i' ∧ v = v') := by
  simp [Row.selects, hmask, hpattern, ofFields_and_controlMask, ofFields_inj]

theorem rowIdle_selects (r i v : Bool) (d : Byte) :
    rowIdle.selects (ofFields r i v d) = decide (r = false ∧ i = false ∧ v = false) :=
  selects_of_controlMask rfl rfl r i v d

theorem rowUpdate_selects (r i v : Bool) (d : Byte) :
    rowUpdate.selects (ofFields r i v d) = decide (r = false ∧ i = false ∧ v = true) :=
  selects_of_controlMask rfl rfl r i v d

theorem rowInit_selects (r i v : Bool) (d : Byte) :
    rowInit.selects (ofFields r i v d) = decide (r = false ∧ i = true ∧ v = false) :=
  selects_of_controlMask rfl rfl r i v d

theorem rowStart_selects (r i v : Bool) (d : Byte) :
    rowStart.selects (ofFields r i v d) = decide (r = false ∧ i = true ∧ v = true) :=
  selects_of_controlMask rfl rfl r i v d

/-- The one row that selects a word is the row of the command it decodes to. -/
theorem filter_rows_selects (w : InputWord) :
    rows.filter (fun r => r.selects w) = [rowOf (decode w)] := by
  induction w using InputWord.rowCases <;>
    simp [rows, rowOf, rowReset_selects, rowIdle_selects, rowUpdate_selects,
      rowInit_selects, rowStart_selects]

/-- The row of a command selects the words that decode to a command of that row, and no others. -/
theorem rowOf_selects_iff (i : Instr) (w : InputWord) :
    (rowOf i).selects w = true ↔ rowOf (decode w) = rowOf i := by
  have h := List.mem_filter (x := rowOf i) (p := fun r => r.selects w) (as := rows)
  rw [filter_rows_selects, List.mem_singleton, and_iff_right (rowOf_mem_rows i)] at h
  exact h.symm.trans eq_comm

/-! ### How many words a row selects (R33) -/

/-- A test that is the same throughout each block of `b` numbers is counted by blocks. -/
theorem countP_range_blocks {p q : Nat → Bool} {b : Nat} (h : ∀ k, ∀ j < b, p (b * k + j) = q k)
    (a : Nat) : (List.range (b * a)).countP p = b * (List.range a).countP q := by
  induction a with
  | zero => rfl
  | succ a ih =>
    have hblock : (List.range b).countP (p ∘ (b * a + ·)) = if q a then b else 0 := by
      rw [List.countP_congr (q := fun _ => q a) fun j hj => by simp [h a j (List.mem_range.mp hj)]]
      cases q a <;> simp
    rw [Nat.mul_succ, List.range_add, List.countP_append, ih, List.countP_map, hblock,
      List.range_succ, List.countP_append, Nat.mul_add]
    cases hq : q a <;> simp [hq]

/-- Words that share their control bits are a block of 256 consecutive numbers. -/
theorem ofNat_block_add (k : Nat) {j : Nat} (hj : j < 256) :
    BitVec.ofNat 11 (256 * k + j) = BitVec.ofNat 3 k ++ BitVec.ofNat 8 j := by
  refine BitVec.eq_of_toNat_eq ?_
  rw [BitVec.toNat_append, ← Nat.shiftLeft_add_eq_or_of_lt (BitVec.isLt _), Nat.shiftLeft_eq]
  simp only [BitVec.toNat_ofNat]
  omega

/-- No row's mask reads a data bit (operand bits are read by decode, not by the mask). -/
theorem control_and_mask_of_mem_rows {r : Row} (hr : r ∈ rows) : 0x700#11 &&& r.mask = r.mask := by
  revert r
  decide

/-- A row selects by the control bits, whatever the data. -/
theorem selects_append {r : Row} (hr : r ∈ rows) (c : BitVec 3) (d : Byte) :
    r.selects (c ++ d) = r.selects (c ++ 0#8) := by
  have hdata (x : Byte) : (c ++ x) &&& 0x700#11 = c ++ 0#8 := by
    have h : (c ++ x) &&& (7#3 ++ 0#8) = (c &&& 7#3) ++ (x &&& 0#8) := BitVec.and_append
    rwa [BitVec.and_zero, show c &&& 7#3 = c from BitVec.and_allOnes] at h
  simp only [Row.selects]
  rw [← control_and_mask_of_mem_rows hr, ← BitVec.and_assoc, ← BitVec.and_assoc, hdata, hdata]

/-- A row's words are counted by the control bits it selects. -/
theorem countP_selects {r : Row} (hr : r ∈ rows) :
    (List.range 2048).countP (fun n => r.selects (BitVec.ofNat 11 n)) =
      256 * (List.range 8).countP (fun k => r.selects (BitVec.ofNat 3 k ++ 0#8)) := by
  refine countP_range_blocks (b := 256) (fun k j hj => ?_) 8
  rw [ofNat_block_add k hj, selects_append hr]

/-- Settles O4: each word meets one row, and a row's words come in the blocks of 256 that its control bits
allow. -/
theorem rowsPartitionTheWords : Obligations.RowsPartitionTheWords := by
  refine ⟨rfl, filter_rows_selects, fun r hr => ?_⟩
  rw [countP_selects hr]
  revert r
  decide

/-! ### Don't-care bits (R34) -/

theorem inputWordOfNat_of_lt {n : Nat} (h : n < 2048) :
    inputWordOfNat n = .ok (BitVec.ofNat 11 n) :=
  if_pos h

theorem decodeNat_of_lt {n : Nat} (h : n < 2048) :
    decodeNat n = .ok (decode (BitVec.ofNat 11 n)) := by
  rw [decodeNat, inputWordOfNat_of_lt h]

/-- The bits a row cares about fix the row, and then the whole command. -/
theorem decode_eq_of_and_care_eq {w v : InputWord}
    (h : w &&& (rowOf (decode w)).care = v &&& (rowOf (decode w)).care) : decode v = decode w := by
  have hsel : (rowOf (decode w)).selects v = (rowOf (decode w)).selects w := by
    simp only [Row.selects]
    rw [← care_and_mask_of_mem_rows (rowOf_mem_rows (decode w)), ← BitVec.and_assoc,
      ← BitVec.and_assoc, h]
  have hrow : rowOf (decode v) = rowOf (decode w) := by
    rw [← rowOf_selects_iff, hsel, rowOf_selects_iff]
  calc decode v = decode (encode (decode v)) := (decode_encode _).symm
    _ = decode (encode (decode w)) := by rw [encode_decode, encode_decode, hrow, h]
    _ = decode w := decode_encode _

/-- Under IDLE and INIT the data bits are free: any data after the same control bits. -/
theorem decode_control_append {w : InputWord}
    (h : w.extractLsb' 8 3 = 0b000#3 ∨ w.extractLsb' 8 3 = 0b010#3) (x : Byte) :
    decode (w.extractLsb' 8 3 ++ x) = decode w := by
  induction w using InputWord.rowCases with
  | reset i v d =>
    rw [extractLsb'_control_ofFields] at h
    cases i <;> cases v <;> simp at h
  | idle d =>
    rw [extractLsb'_control_ofFields, decode_ofFields_idle]
    exact decode_ofFields_idle x
  | update d => rw [extractLsb'_control_ofFields] at h; simp at h
  | init d =>
    rw [extractLsb'_control_ofFields, decode_ofFields_init]
    exact decode_ofFields_init x
  | start d => rw [extractLsb'_control_ofFields] at h; simp at h

/-- Settles O5: what a row reads fixes the command, and a step reads its word through decode alone. -/
theorem dontCareBitsAreIgnored : Obligations.DontCareBitsAreIgnored := by
  refine ⟨fun n hn => decodeNat_of_lt hn, fun w v h => ?_, fun w v hw hv => ?_,
    fun w x h => decode_control_append h x, rfl, rfl, rfl⟩
  · have hdec := decode_eq_of_and_care_eq h
    exact ⟨hdec, fun s => by rw [step_present_cons, step_present_cons, hdec]⟩
  · rw [decode_of_rst hw, decode_of_rst hv]

/-! ### Assembler lines (R36) -/

theorem assemble_of_wellFormed {p : List Line} (h : p.all Line.wellFormed = true) :
    assemble p = some (p.flatMap Line.words) :=
  if_pos h

/-- A well-formed line alone assembles to its words. -/
theorem assemble_singleton {l : Line} (h : l.wellFormed = true) : assemble [l] = some l.words := by
  rw [assemble_of_wellFormed (by simpa using h)]
  simp

/-- The number of a word whose data byte is written as its number. -/
theorem ofFields_ofNat (r i v : Bool) {n : Nat} (h : n ≤ 0xFF) :
    ofFields r i v (BitVec.ofNat 8 n) =
      BitVec.ofNat 11 (r.toNat * 1024 + i.toNat * 512 + v.toNat * 256 + n) := by
  have hr := r.toNat_lt
  have hi := i.toNat_lt
  have hv := v.toNat_lt
  refine BitVec.eq_of_toNat_eq ?_
  rw [toNat_ofFields, BitVec.toNat_ofNat, BitVec.toNat_ofNat]
  omega

theorem encode_update_ofNat {n : Nat} (h : n ≤ 0xFF) :
    encode (.update (BitVec.ofNat 8 n)) = BitVec.ofNat 11 (0x100 + n) :=
  (encode_update _).trans (ofFields_ofNat false false true h)

theorem encode_start_ofNat {n : Nat} (h : n ≤ 0xFF) :
    encode (.start (BitVec.ofNat 8 n)) = BitVec.ofNat 11 (0x300 + n) :=
  (encode_start _).trans (ofFields_ofNat false true true h)

/-- The lines with an operand, over any well-formed operand that stands for the byte numbered `n`. -/
theorem assemble_operand_lines {o : Operand} {n : Nat} (ho : o.wellFormed = true) (hn : n ≤ 0xFF)
    (hbyte : o.byte = BitVec.ofNat 8 n) :
    assemble [.update o] = some [BitVec.ofNat 11 (0x100 + n)] ∧
      assemble [.start o] = some [BitVec.ofNat 11 (0x300 + n)] := by
  rw [assemble_singleton (l := .update o) ho, assemble_singleton (l := .start o) ho, Line.words,
    Line.words, hbyte, encode_update_ofNat hn, encode_start_ofNat hn]
  exact ⟨rfl, rfl⟩

/-- Settles O7: a well-formed program assembles to its lines' words, and an operand's number is added to
the pattern of its row. -/
theorem notationLinesAssemble : Obligations.NotationLinesAssemble := by
  refine ⟨assemble_singleton rfl, assemble_singleton rfl, assemble_singleton rfl,
    fun n hn => assemble_operand_lines (decide_eq_true hn) hn rfl, fun c hlow hhigh => ?_,
    fun n hn => assemble_singleton (decide_eq_true hn), fun p q hp hq => ?_⟩
  · have hwf : (Operand.chr c).wellFormed = true := by simp [Operand.wellFormed, hlow, hhigh]
    exact assemble_operand_lines hwf (by omega) rfl
  · rw [assemble_of_wellFormed (by rw [List.all_append, hp, hq]; rfl), List.flatMap_append]

end Sys2Proof

/-! PROOFS. The word of a step (spec 20_memory.md R27, 30_encoding.md R31) and the runs of the
pseudo-commands (R37). -/

namespace Sys2Proof.Machine

/-! ### The word a step takes -/

theorem State.sample_of_presented {s : State} {w : InputWord} {ws : List InputWord}
    (h : s.presented = w :: ws) : s.sample = (w, { s with presented := ws }) := by
  rw [State.sample, h]

/-- Settles O8: sampling takes the first listed word. -/
theorem stepRunsThePresentedWord : Obligations.StepRunsThePresentedWord := by
  intro s w ws h
  rw [step, State.sample_of_presented h]

/-- A number of the table below 2048 is a word, at every width that holds all 11 bits. -/
theorem tableWord_of_lt {nbits n : Nat} (hn : n < 2048) (hbits : 11 ≤ nbits) :
    tableWord nbits n = some (BitVec.ofNat 11 n) := by
  have hwidth : 2048 ≤ 2 ^ nbits := Nat.pow_le_pow_right (n := 2) (by decide) hbits
  rw [tableWord, Nat.mod_eq_of_lt (by omega), inputWordOfNat_of_lt hn]

theorem State.withFetchWord_of_tableWord {s : State} {nbits n : Nat} {w : InputWord}
    (h : tableWord nbits n = some w) : s.withFetchWord nbits n = s.present [w] := by
  rw [State.withFetchWord, h]

/-- Settles O10: the placed word is the one presented, and a step over it is its command at the state it
was placed in. -/
theorem placedWordIsRun : Obligations.PlacedWordIsRun := by
  intro s nbits n hn hbits
  have hword := tableWord_of_lt hn hbits
  refine ⟨by rw [decodeTableWord, hword]; rfl, ?_⟩
  rw [State.withFetchWord_of_tableWord hword]
  exact stepRunsThePresentedWord (s.present [BitVec.ofNat 11 n]) (BitVec.ofNat 11 n) s.presented rfl

/-! ### The runs of MSG and MSGI (R37, R45) -/

/-- The next value over a canonical word is its command's. -/
@[simp] theorem nextCrc_encode (c : Crc) (i : Instr) : nextCrc c (encode i) = crcAfter i c := by
  rw [nextCrc_eq_crcAfter_decode, decode_encode]

/-- UPDATE words absorb their bytes in order. -/
theorem foldl_nextCrc_updates (c : Crc) (m : Message) :
    (m.map fun d => encode (.update d)).foldl nextCrc c = crcFrom c m := by
  simp only [List.foldl_map, nextCrc_encode]
  rfl

/-- The words of a message leave its `crc_raw`, whatever the register held. -/
theorem foldl_nextCrc_msgWords (c : Crc) (m : Message) :
    (msgWords m).foldl nextCrc c = crcRaw m := by
  cases m with
  | nil => exact nextCrc_encode c .init
  | cons b bs =>
    rw [msgWords, List.foldl_cons, nextCrc_encode, foldl_nextCrc_updates]
    rfl

/-- The split form leaves the same value. -/
theorem foldl_nextCrc_msgiWords (c : Crc) (m : Message) :
    (msgiWords m).foldl nextCrc c = crcRaw m := by
  rw [msgiWords, List.foldl_cons, nextCrc_encode, foldl_nextCrc_updates]
  rfl

theorem runWords_msgWords (s : State) (m : Message) :
    runWords s (msgWords m) = .next (s.setCrc (crcRaw m)) := by
  rw [runWords_eq_setCrc_foldl, foldl_nextCrc_msgWords]

theorem runWords_msgiWords (s : State) (m : Message) :
    runWords s (msgiWords m) = .next (s.setCrc (crcRaw m)) := by
  rw [runWords_eq_setCrc_foldl, foldl_nextCrc_msgiWords]

/-- INIT is the one word more, where there is a first byte. -/
theorem length_msgiWords {m : Message} (h : m ≠ []) :
    (msgiWords m).length = (msgWords m).length + 1 := by
  cases m with
  | nil => exact absurd rfl h
  | cons b bs => simp [msgiWords, msgWords]

/-- The output over a message's raw value is the message's CRC (R46, R60). -/
theorem State.out_crcOut_setCrc_crcRaw (s : State) (m : Message) :
    (s.setCrc (crcRaw m)).out.crcOut = crc32 m := rfl

/-- Settles O47: the expansions hold by definition; both forms of a message leave its `crc_raw`, and an
IDLE word writes back what it reads. -/
theorem pseudoCommandResults : Obligations.PseudoCommandResults := by
  refine ⟨fun s os => ⟨_, runWords_msgWords s _, State.out_crcOut_setCrc_crcRaw s _⟩, fun s os => ?_,
    fun os hos => ?_, rfl, rfl, fun o os => ?_, fun os => ?_, rfl, fun _ _ _ _ _ => rfl, fun s => ?_⟩
  · rw [Line.words, Line.words, runWords_msgWords, runWords_msgiWords]
  · exact length_msgiWords (by simpa using hos)
  · simp [Line.words, msgWords]
  · simp [Line.words, msgiWords]
  · rw [Line.words, runWords_cons, decode_encode]
    rfl

end Sys2Proof.Machine

/-! PROOFS. The arithmetic (spec 40_crc_arithmetic.md): the bit step is linear and invertible, the byte
step and a whole message inherit both, and the claims on errors and on joined messages follow. -/

namespace Sys2Proof.Machine

/-! ### The constants and one bit step (R40 to R42) -/

/-- Settles O26: closed facts about the constants. -/
theorem polyIsTheReflectedGenerator : Obligations.PolyIsTheReflectedGenerator :=
  ⟨rfl, rfl, rfl, by decide, by decide, by decide⟩

/-- A bit of the result is the next higher bit, changed where bit 0 was set and `POLY` has the bit; past
the top there is no higher bit. -/
theorem bitstep_getLsbD (c : Crc) (i : Nat) :
    (bitstep c).getLsbD i = (c.getLsbD (i + 1) ^^ (c.getLsbD 0 && Config.poly.getLsbD i)) := by
  rw [bitstep_eq_xor, BitVec.getLsbD_xor, BitVec.getLsbD_ushiftRight, Nat.add_comm]
  cases c.getLsbD 0 <;> simp

/-- Settles O27: the printed expression is the definition, and each bit is read off the mask form. -/
theorem bitstepBitByBit : Obligations.BitstepBitByBit :=
  ⟨fun _ => rfl, bitstep_getLsbD_31, fun c i _ => bitstep_getLsbD c i, by decide⟩

/-! ### Linearity over GF(2) (R49) -/

/-- The shift is linear, and so is the constant under its mask, bit 0. -/
theorem bitstep_xor (c d : Crc) : bitstep (c ^^^ d) = bitstep c ^^^ bitstep d := by
  have hmask (x y : Bool) : (if (x ^^ y) = true then Config.poly else 0#32) =
      (if x = true then Config.poly else 0#32) ^^^ (if y = true then Config.poly else 0#32) := by
    cases x <;> cases y <;> decide
  simp only [bitstep_eq_xor, BitVec.getLsbD_xor, BitVec.ushiftRight_xor_distrib, hmask]
  ac_rfl

theorem bitstep_iterate_xor (k : Nat) (c d : Crc) :
    bitstep^[k] (c ^^^ d) = bitstep^[k] c ^^^ bitstep^[k] d :=
  Function.Semiconj₂.iterate bitstep_xor k c d

theorem zext32_xor (a b : Byte) : zext32 (a ^^^ b) = zext32 a ^^^ zext32 b := BitVec.setWidth_xor

theorem bytestep_xor (c d : Crc) (a b : Byte) :
    bytestep (c ^^^ d) (a ^^^ b) = bytestep c a ^^^ bytestep d b := by
  have hinput : (c ^^^ d) ^^^ zext32 (a ^^^ b) = (c ^^^ zext32 a) ^^^ (d ^^^ zext32 b) := by
    rw [zext32_xor]
    ac_rfl
  rw [bytestep, hinput, bitstep_iterate_xor, bytestep, bytestep]

theorem bytestep_zero_zero : bytestep 0x00000000#32 0x00#8 = 0x00000000#32 := by decide

@[simp] theorem crcFrom_nil (c : Crc) : crcFrom c [] = c := rfl

@[simp] theorem crcFrom_cons (c : Crc) (b : Byte) (m : Message) :
    crcFrom c (b :: m) = crcFrom (bytestep c b) m := rfl

theorem crcFrom_append (c : Crc) (m n : Message) : crcFrom c (m ++ n) = crcFrom (crcFrom c m) n :=
  List.foldl_append

/-- Messages of equal length are folded in step, byte with byte. -/
theorem crcFrom_xor_zipWith {m n : Message} (h : m.length = n.length) (c d : Crc) :
    crcFrom (c ^^^ d) (List.zipWith (· ^^^ ·) m n) = crcFrom c m ^^^ crcFrom d n := by
  induction m generalizing n c d with
  | nil =>
    obtain rfl := List.length_eq_zero_iff.mp h.symm
    rfl
  | cons a as ih =>
    cases n with
    | nil => cases h
    | cons b bs =>
      rw [List.zipWith_cons_cons, crcFrom_cons, bytestep_xor, ih (Nat.succ.inj h), crcFrom_cons,
        crcFrom_cons]

/-- In the difference of two results the inversions cancel. -/
theorem crc32_xor_crc32 (m n : Message) : crc32 m ^^^ crc32 n = crcRaw m ^^^ crcRaw n := by
  rw [crc32, crc32, BitVec.xor_assoc, BitVec.xor_comm Config.xorout, BitVec.xor_assoc,
    BitVec.xor_self, BitVec.xor_zero]

theorem crc32_inj {m n : Message} : crc32 m = crc32 n ↔ crcRaw m = crcRaw n :=
  BitVec.xor_left_inj Config.xorout

/-! ### Invertibility (R50) -/

/-- On a finite type an injection is onto. -/
theorem bitstep_bijective : Function.Bijective bitstep :=
  Finite.injective_iff_bijective.mp bitstep_injective

/-- The inverse works on the other side too, since every value is a bit step of some value. -/
theorem bitstep_bitstepInv (r : Crc) : bitstep (bitstepInv r) = r :=
  Function.LeftInverse.rightInverse_of_surjective bitstepInv_bitstep bitstep_bijective.surjective r

theorem bytestep_left_bijective (b : Byte) : Function.Bijective (fun c => bytestep c b) :=
  Finite.injective_iff_bijective.mp (bytestep_left_injective b)

/-- A byte survives in bits 7:0 of its zero extension. -/
theorem zext32_injective : Function.Injective zext32 := by
  have hback (b : Byte) : (zext32 b).setWidth 8 = b := by simp [zext32]
  exact Function.LeftInverse.injective hback

/-- Different bytes lead from one running value to different ones. -/
theorem bytestep_injective (c : Crc) : Function.Injective (bytestep c) :=
  fun _ _ h => zext32_injective ((BitVec.xor_right_inj c).mp (bitstep_injective.iterate 8 h))

/-- Settles O34: bijections of a finite type, from the injectivity that the left inverse gives. -/
theorem stepsAreInvertible : Obligations.StepsAreInvertible :=
  ⟨bitstepInv_bitstep, bitstep_bitstepInv, bitstep_bijective, bytestep_left_bijective,
    bytestep_injective, bytestep_zero_zero⟩

/-- A whole message keeps different running values different. -/
theorem crcFrom_injective (m : Message) : Function.Injective (fun c => crcFrom c m) := by
  induction m with
  | nil => exact Function.injective_id
  | cons b bs ih => exact ih.comp (bytestep_left_injective b)

/-- A zero byte moves the seed, and no later byte can undo that. -/
theorem crc32_zero_cons_ne (m : Message) : crc32 (0x00#8 :: m) ≠ crc32 m := by
  have hseed : bytestep Config.init 0x00#8 ≠ Config.init := by decide
  intro h
  exact hseed (crcFrom_injective m (crc32_inj.mp h))

/-- Settles O33: the three laws of linearity, with the two seeds cancelling, and the two remarks on the
seed. -/
theorem linearOverGF2 : Obligations.LinearOverGF2 := by
  refine ⟨bitstep_xor, bytestep_xor, bytestep_zero_zero, fun m n h => ?_, by decide,
    crc32_zero_cons_ne⟩
  calc crc32 m ^^^ crc32 n = crcRaw m ^^^ crcRaw n := crc32_xor_crc32 m n
    _ = crcFrom (Config.init ^^^ Config.init) (List.zipWith (· ^^^ ·) m n) :=
      (crcFrom_xor_zipWith h Config.init Config.init).symm
    _ = crcFrom 0x00000000#32 (List.zipWith (· ^^^ ·) m n) := by rw [BitVec.xor_self]

/-! ### A single flipped bit (R52) -/

theorem xor_twoPow_ne_self {w i : Nat} (x : BitVec w) (hi : i < w) : x ^^^ BitVec.twoPow w i ≠ x := by
  intro h
  have hbit := congrArg (fun v => v.getLsbD i) h
  simp [hi] at hbit

/-- Changing one byte changes the running value there, and every later byte keeps the two apart. -/
theorem crcFrom_modify_ne {f : Byte → Byte} (hf : ∀ b, f b ≠ b) (c : Crc) {m : Message} {k : Nat}
    (hk : k < m.length) : crcFrom c (m.modify k f) ≠ crcFrom c m := by
  rw [List.modify_eq_take_cons_drop hk]
  conv_rhs => rw [← List.take_append_drop k m, List.drop_eq_getElem_cons hk]
  rw [crcFrom_append, crcFrom_append, crcFrom_cons, crcFrom_cons]
  exact fun h => hf _ (bytestep_injective _ (crcFrom_injective _ h))

theorem crc32_flipBit_ne {m : Message} {k i : Nat} (hk : k < m.length) (hi : i < 8) :
    crc32 (flipBit m k i) ≠ crc32 m := fun h =>
  crcFrom_modify_ne (fun b => xor_twoPow_ne_self b hi) Config.init hk (crc32_inj.mp h)

/-- Settles O36: a flipped bit changes the byte or the stored value it stands in. -/
theorem singleBitFlipIsDetected : Obligations.SingleBitFlipIsDetected :=
  ⟨fun _ _ _ hk hi => crc32_flipBit_ne hk hi, fun m _ hj => xor_twoPow_ne_self (crc32 m) hj⟩

/-! ### One byte step, and its bit-serial form (R43, R44) -/

theorem bytestep_eq_bytestep_xor_zero (c : Crc) (b : Byte) :
    bytestep c b = bytestep (c ^^^ zext32 b) 0x00#8 := by
  simp [bytestep, zext32]

/-- Settles O28: the definition written out, a zero byte that changes nothing, and closed values. -/
theorem bytestepRule : Obligations.BytestepRule :=
  ⟨fun _ _ => rfl, bytestep_eq_bytestep_xor_zero, by decide⟩

theorem zext32_getLsbD (b : Byte) (k : Nat) : (zext32 b).getLsbD k = b.getLsbD k := by
  rw [zext32, BitVec.getLsbD_setWidth]
  cases h : b.getLsbD k with
  | false => simp
  | true => simpa using (BitVec.lt_of_getLsbD h).trans (by decide)

/-- One bit step takes the byte's lowest unconsumed bit as the serial round does, and moves the others
down. -/
theorem bitstep_xor_zext32_shift (c : Crc) (b : Byte) (k : Nat) :
    bitstep (c ^^^ zext32 (b >>> k)) = serialRound b c k ^^^ zext32 (b >>> (k + 1)) := by
  have hfeedback : (c ^^^ zext32 (b >>> k)).getLsbD 0 = (c.getLsbD 0 ^^ b.getLsbD k) := by
    rw [BitVec.getLsbD_xor, zext32_getLsbD, BitVec.getLsbD_ushiftRight, Nat.add_zero]
  have hrest : zext32 (b >>> k) >>> 1 = zext32 (b >>> (k + 1)) := by
    rw [zext32, ← BitVec.setWidth_ushiftRight (by decide), BitVec.shiftRight_add, zext32]
  rw [bitstep, hfeedback, BitVec.ushiftRight_xor_distrib, hrest, serialRound]
  split <;> ac_rfl

/-- The invariant of R44's derivation. -/
theorem bitstep_iterate_eq_serialRounds (c : Crc) (b : Byte) (k : Nat) :
    bitstep^[k] (c ^^^ zext32 b) =
      (List.range k).foldl (serialRound b) c ^^^ zext32 (b >>> k) := by
  induction k with
  | zero => simp
  | succ k ih =>
    rw [Function.iterate_succ_apply', ih, bitstep_xor_zext32_shift, List.range_succ,
      List.foldl_append, List.foldl_cons, List.foldl_nil]

/-- After eight rounds no bit of the byte is left. -/
theorem bytestepSerial_eq_bytestep (c : Crc) (b : Byte) : bytestepSerial c b = bytestep c b := by
  have hconsumed : zext32 (b >>> 8) = 0#32 := by
    rw [BitVec.ushiftRight_eq_zero (Nat.le_refl 8)]
    rfl
  rw [bytestep, bitstep_iterate_eq_serialRounds, hconsumed, BitVec.xor_zero]
  rfl

/-- Settles O29: the invariant for every `k`, and its case `k = 8`. -/
theorem bitSerialFormAgrees : Obligations.BitSerialFormAgrees :=
  ⟨bytestepSerial_eq_bytestep, fun c b k _ => bitstep_iterate_eq_serialRounds c b k⟩

/-! ### Whole messages (R45, R46, R51, R54) -/

/-- Settles O30: the definitions, and the running values of the example. -/
theorem crcRawFoldsFromTheSeed : Obligations.CrcRawFoldsFromTheSeed :=
  ⟨fun _ => rfl, rfl, fun _ _ => rfl, fun _ => rfl, by decide +kernel⟩

/-- XOR with all ones inverts every bit. -/
theorem crc32_eq_not (m : Message) : crc32 m = ~~~(crcRaw m) :=
  BitVec.xor_allOnes

/-- Settles O31: the inversion as an XOR and as a complement, and the examples. -/
theorem crc32InvertsOnce : Obligations.Crc32InvertsOnce :=
  ⟨fun m => ⟨rfl, crc32_eq_not m⟩, by decide +kernel⟩

theorem crcRaw_append (m n : Message) : crcRaw (m ++ n) = crcFrom (crcRaw m) n :=
  crcFrom_append Config.init m n

/-- Undoing the inversion gives the raw value back. -/
theorem crc32_xor_xorout (m : Message) : crc32 m ^^^ Config.xorout = crcRaw m := by
  rw [crc32, BitVec.xor_assoc, BitVec.xor_self, BitVec.xor_zero]

theorem crc32_ne_crcRaw (m : Message) : crc32 m ≠ crcRaw m := by
  rw [crc32_eq_not]
  exact (BitVec.ne_not_self (by decide)).symm

/-- Continuing from the inverted value starts from a wrong one, and no later byte repairs it. -/
theorem crc32_append_ne (m n : Message) :
    crc32 (m ++ n) ≠ crcFrom (crc32 m) n ^^^ Config.xorout := by
  rw [crc32, crcRaw_append]
  intro h
  exact crc32_ne_crcRaw m (crcFrom_injective n ((BitVec.xor_left_inj _).mp h)).symm

/-- Settles O35: a fold over joined lists, from the raw value; the inverted value is another one. -/
theorem messagesContinue : Obligations.MessagesContinue := by
  refine ⟨crcRaw_append, crcRaw_append_singleton, fun m n => ?_, crc32_append_ne, by decide +kernel⟩
  show crcRaw (m ++ n) ^^^ Config.xorout = crcFrom (crc32 m ^^^ Config.xorout) n ^^^ Config.xorout
  rw [crc32_xor_xorout, crcRaw_append]

/-- Settles O38: RESET and INIT load the seed, which is the empty message's raw value. -/
theorem emptyMessageIsZero : Obligations.EmptyMessageIsZero :=
  ⟨rfl, by decide, fun s => ⟨_, exec_eq_setCrc .reset s, State.out_crcOut_setCrc_crcRaw s []⟩,
    fun s => ⟨_, exec_eq_setCrc .init s, State.out_crcOut_setCrc_crcRaw s []⟩⟩

/-! ### Messages at the machine (R47, R53) -/

/-- Settles O32: the chunk's words are the words of its message. -/
theorem chunkChecksum : Obligations.ChunkChecksum :=
  ⟨fun s _ _ _ _ _ => ⟨_, runWords_msgWords s _, State.out_crcOut_setCrc_crcRaw s _, rfl⟩,
    by decide +kernel, by decide +kernel⟩

/-- IDLE leaves the register, so only the commands other than IDLE count in a run. -/
theorem foldl_nextCrc_eq_foldl_filter (c : Crc) (ws : List InputWord) :
    ws.foldl nextCrc c = ((ws.map decode).filter fun i => decide (i ≠ .idle)).foldl
      (fun c i => crcAfter i c) c := by
  induction ws generalizing c with
  | nil => rfl
  | cons w ws ih =>
    rw [List.foldl_cons, ih, nextCrc_eq_crcAfter_decode, List.map_cons]
    by_cases hidle : decode w = .idle
    · rw [List.filter_cons_of_neg (by simpa using hidle), hidle]
      rfl
    · rw [List.filter_cons_of_pos (by simpa using hidle), List.foldl_cons]

/-- Settles O48: both runs fold the same commands. -/
theorem idlePlacementIsIrrelevant : Obligations.IdlePlacementIsIrrelevant := by
  intro s ws vs h
  rw [runWords_eq_setCrc_foldl, runWords_eq_setCrc_foldl, foldl_nextCrc_eq_foldl_filter, h,
    ← foldl_nextCrc_eq_foldl_filter]

end Sys2Proof.Machine

/-! PROOFS. The table form of the byte step (spec 42_crc_table.md): eight bit steps shift the upper bits
out unchanged, so the low byte alone decides what is XORed in. -/

namespace Sys2Proof.Machine

/-- Bit steps over clear low bits are shifts: none of them XORs `POLY` in. -/
theorem bitstep_iterate_of_low_clear {c : Crc} {k : Nat} (h : ∀ i < k, c.getLsbD i = false) :
    bitstep^[k] c = c >>> k := by
  induction k with
  | zero => simp
  | succ k ih =>
    have hbit : (c >>> k).getLsbD 0 = false := by simpa using h k k.lt_succ_self
    rw [Function.iterate_succ_apply', ih fun i hi => h i (hi.trans k.lt_succ_self), bitstep, hbit,
      BitVec.shiftRight_add]
    rfl

/-- A value is its low byte and its upper 24 bits. -/
theorem zext32_low_xor_upper (x : Crc) :
    zext32 (x.extractLsb' 0 8) ^^^ ((x >>> 8) <<< 8) = x := by
  refine BitVec.eq_of_getLsbD_eq fun i hi => ?_
  rw [BitVec.getLsbD_xor, zext32_getLsbD, BitVec.getLsbD_extractLsb', BitVec.getLsbD_shiftLeft,
    BitVec.getLsbD_ushiftRight]
  by_cases h8 : i < 8
  · simp [h8]
  · simp [h8, hi, show 8 + (i - 8) = i by omega]

/-- Eight bit steps: the table entry of the low byte, XORed into the rest shifted down (R66). -/
theorem bitstep_iterate_eight (x : Crc) :
    bitstep^[8] x = tableEntry (x.extractLsb' 0 8) ^^^ (x >>> 8) := by
  have hclear : ∀ i < 8, ((x >>> 8) <<< 8).getLsbD i = false := by
    intro i hi
    simp [hi]
  have hback : ((x >>> 8) <<< 8) >>> 8 = x >>> 8 := by
    refine BitVec.eq_of_getLsbD_eq fun i hi => ?_
    by_cases h24 : 8 + i < 32
    · simp [h24]
    · simp [h24, BitVec.getLsbD_of_ge x (8 + i) (Nat.le_of_not_lt h24)]
  conv_lhs => rw [← zext32_low_xor_upper x]
  rw [bitstep_iterate_xor, bitstep_iterate_of_low_clear hclear, hback, tableEntry]

/-- No bit of a byte is left after a shift by eight. -/
theorem zext32_ushiftRight_eight (b : Byte) : zext32 b >>> 8 = 0#32 := by
  rw [zext32, ← BitVec.setWidth_ushiftRight (by decide), BitVec.ushiftRight_eq_zero (Nat.le_refl 8)]
  rfl

/-- The byte step in the table form of R66. -/
theorem bytestep_eq_bytestepTable (c : Crc) (b : Byte) :
    bytestep c b = bytestepTable tableEntry c b := by
  rw [bytestep, bitstep_iterate_eight, BitVec.ushiftRight_xor_distrib, zext32_ushiftRight_eight,
    BitVec.xor_zero, bytestepTable]

/-- Each of the 256 entries R67 prints is the computed one. -/
theorem printedEntry_eq_tableEntry : ∀ n : Byte, printedEntry n = tableEntry n := by
  decide +kernel

/-- The byte step from the printed entries. -/
theorem bytestep_eq_printedEntry (c : Crc) (b : Byte) :
    bytestep c b = printedEntry ((c ^^^ zext32 b).extractLsb' 0 8) ^^^ (c >>> 8) := by
  rw [bytestep_eq_bytestepTable, bytestepTable, printedEntry_eq_tableEntry]

/-- From the seed the index is the complement of the byte. -/
theorem low_byte_of_init_xor (d : Byte) : (Config.init ^^^ zext32 d).extractLsb' 0 8 = ~~~d := by
  have hseed : Config.init.extractLsb' 0 8 = BitVec.allOnes 8 := by decide
  have hbyte : (zext32 d).extractLsb' 0 8 = d := by
    refine BitVec.eq_of_getLsbD_eq fun i hi => ?_
    rw [BitVec.getLsbD_extractLsb', zext32_getLsbD]
    simp [hi]
  rw [BitVec.extractLsb'_xor, hseed, hbyte, BitVec.allOnes_xor]

/-- Settles O20: the byte step from the printed entries, at the register's value and at the seed. -/
theorem absorbingByThePrintedTable : Obligations.AbsorbingByThePrintedTable := by
  refine fun s d => ⟨?_, ?_⟩
  · rw [exec_eq_setCrc, crcAfter, bytestep_eq_printedEntry]
    rfl
  · have hshift : Config.init >>> 8 = 0x00FFFFFF#32 := by decide
    rw [exec_eq_setCrc, crcAfter, bytestep_eq_printedEntry, low_byte_of_init_xor, hshift]
    rfl

end Sys2Proof.Machine

/-! PROOFS. The five commands at one step, the outputs, and the runs of a message (spec
41_commands.md). -/

namespace Sys2Proof.Machine

open Sys2Proof.Safety Sys2Proof.InputWord

/-! ### The step over one word (R63) -/

/-- A step over one presented word is its command's write of the register. -/
theorem step_of_decode {w : InputWord} {i : Instr} (h : decode w = i) (s : State) :
    step (s.present [w]) = .next (s.setCrc (crcAfter i s.crc)) := by
  rw [step_present_cons, h, State.present_nil]

/-- R63's datapath view, read on the fields of the word. -/
theorem nextCrcMux_eq_fields (c : Crc) (w : InputWord) :
    nextCrcMux c w = if w.rst then Config.resetValue
      else if w.valid then bytestep (if w.init then Config.init else c) w.data
      else if w.init then Config.init else c := rfl

/-- The multiplexers of R63's datapath view, row by row of the command map, pass the value the chain of
tests gives. -/
theorem nextCrcMux_eq_crcAfter_decode (c : Crc) (w : InputWord) :
    nextCrcMux c w = crcAfter (decode w) c := by
  rw [nextCrcMux_eq_fields]
  induction w using InputWord.rowCases <;> simp [crcAfter]

/-- Settles O11: both of R63's forms are the write of the decoded command, and the outputs are defined
as R63 prints them. -/
theorem stepIsTheSpecStepFunction : Obligations.StepIsTheSpecStepFunction := by
  refine ⟨fun s w => ?_, fun s w => ?_, fun _ => rfl⟩
  · rw [step_of_decode rfl, ← nextCrc_eq_crcAfter_decode]
    rfl
  · rw [step_of_decode rfl, ← nextCrcMux_eq_crcAfter_decode]
    rfl

/-! ### The words of each row (R33) -/

/-- The control bits a mask of R33 shows are the word's own; its data stays free. -/
theorem eq_ofFields_of_and_controlMask {w : InputWord} (r i v : Bool)
    (h : w &&& 0x700#11 = ofFields r i v 0) : w = ofFields r i v w.data := by
  rw [← ofFields_fields w, ofFields_and_controlMask, ofFields_inj] at h
  obtain ⟨hr, hi, hv, -⟩ := h
  rw [← hr, ← hi, ← hv, ofFields_fields]

theorem decode_of_resetMask {w : InputWord} (h : w &&& 0x400#11 = 0x400#11) : decode w = .reset := by
  have hbit := congrArg (fun v => v.getLsbD 10) h
  exact decode_of_rst (by simpa using hbit)

theorem decode_of_idleMask {w : InputWord} (h : w &&& 0x700#11 = 0x000#11) : decode w = .idle :=
  (congrArg decode (eq_ofFields_of_and_controlMask false false false h)).trans
    (decode_ofFields_idle w.data)

theorem decode_of_updateMask {w : InputWord} (h : w &&& 0x700#11 = 0x100#11) :
    decode w = .update w.data :=
  (congrArg decode (eq_ofFields_of_and_controlMask false false true h)).trans
    (decode_ofFields_update w.data)

theorem decode_of_initMask {w : InputWord} (h : w &&& 0x700#11 = 0x200#11) : decode w = .init :=
  (congrArg decode (eq_ofFields_of_and_controlMask false true false h)).trans
    (decode_ofFields_init w.data)

theorem decode_of_startMask {w : InputWord} (h : w &&& 0x700#11 = 0x300#11) :
    decode w = .start w.data :=
  (congrArg decode (eq_ofFields_of_and_controlMask false true true h)).trans
    (decode_ofFields_start w.data)

/-- The word of given fields, as the sum of its row's number and its data. -/
theorem add_setWidth_eq_ofFields (r i v : Bool) (d : Byte) :
    BitVec.ofNat 11 (r.toNat * 1024 + i.toNat * 512 + v.toNat * 256) + d.setWidth 11 =
      ofFields r i v d := by
  have h := ofFields_ofNat r i v (Nat.le_of_lt_succ d.isLt)
  rw [BitVec.ofNat_toNat, BitVec.setWidth_eq, BitVec.ofNat_add, BitVec.ofNat_toNat] at h
  exact h.symm

theorem decode_update_sum (d : Byte) : decode (0x100#11 + d.setWidth 11) = .update d :=
  (congrArg decode (add_setWidth_eq_ofFields false false true d)).trans (decode_ofFields_update d)

theorem decode_start_sum (d : Byte) : decode (0x300#11 + d.setWidth 11) = .start d :=
  (congrArg decode (add_setWidth_eq_ofFields false true true d)).trans (decode_ofFields_start d)

/-! ### Seeding commands in a run (R62, R82) -/

/-- A seeding command does not read the register. -/
theorem crcAfter_eq_of_seeds {i : Instr} (hi : seeds i = true) (c c' : Crc) :
    crcAfter i c = crcAfter i c' := by
  cases i with
  | reset => rfl
  | idle => cases hi
  | update d => cases hi
  | init => rfl
  | start d => rfl

/-- What ran before a seeding word leaves no trace. -/
theorem runWords_append_of_seeds {w : InputWord} (hw : seeds (decode w) = true) (s : State)
    (before after : List InputWord) :
    runWords s (before ++ w :: after) = runWords s (w :: after) := by
  simp only [runWords_eq_setCrc_foldl, List.foldl_append, List.foldl_cons,
    nextCrc_eq_crcAfter_decode _ w]
  rw [crcAfter_eq_of_seeds hw _ s.crc]

/-- Two words of one seeding command leave what one of them leaves. -/
theorem runWords_seed_twice {w v : InputWord} {i : Instr} (hi : seeds i = true) (hw : decode w = i)
    (hv : decode v = i) (s : State) : runWords s [w, v] = runWords s [w] :=
  calc runWords s ([w] ++ v :: []) = runWords s [v] := runWords_append_of_seeds (hv ▸ hi) s [w] []
    _ = runWords s [w] := by rw [runWords_cons, runWords_cons, hw, hv]

/-! ### RESET (R55) -/

/-- Settles O14: the mask of RESET fixes the decode, and RESET writes the reset value without reading
the register. -/
theorem resetLoadsTheResetValue : Obligations.ResetLoadsTheResetValue := by
  refine ⟨exec_eq_setCrc .reset, fun s w hw => step_of_decode (decode_of_resetMask hw) s,
    fun _ => rfl, fun s w v hw hv => ?_, fun s => step_of_decode (decode_of_resetMask rfl) s, by decide,
    fun s t h => ?_⟩
  · exact runWords_seed_twice rfl (decode_of_resetMask hw) (decode_of_resetMask hv) s
  · obtain rfl := (exec_next_iff .reset s t).mp h
    exact BitVec.xor_self

/-! ### IDLE (R56) -/

/-- IDLE words leave the state, however many. -/
theorem runWords_of_idle {ws : List InputWord} (h : ∀ w ∈ ws, decode w = .idle) (s : State) :
    runWords s ws = .next s := by
  induction ws with
  | nil => rfl
  | cons w ws ih =>
    obtain ⟨hw, hws⟩ := List.forall_mem_cons.mp h
    rw [runWords_cons, hw]
    exact ih hws

/-- Settles O15: IDLE writes back what it read. -/
theorem idleHoldsTheState : Obligations.IdleHoldsTheState :=
  ⟨exec_eq_setCrc .idle, fun s _ hw => step_of_decode (decode_of_idleMask hw) s,
    fun s _ hws => runWords_of_idle (fun w hw => decode_of_idleMask (hws w hw)) s⟩

/-! ### UPDATE (R57) -/

/-- Every command but UPDATE leaves the state or loads one value from every state. -/
theorem exec_idle_or_loads {i : Instr} (hi : ∀ d, i ≠ .update d) :
    (∀ s, exec i s = .next s) ∨ ∃ c, ∀ s, exec i s = .next { s with crc := c } := by
  cases i with
  | reset => exact .inr ⟨_, exec_eq_setCrc .reset⟩
  | idle => exact .inl (exec_eq_setCrc .idle)
  | update d => exact absurd rfl (hi d)
  | init => exact .inr ⟨_, exec_eq_setCrc .init⟩
  | start d => exact .inr ⟨_, exec_eq_setCrc (.start d)⟩

/-- Four bytes FF bring the seed to zero. -/
theorem crcRaw_four_FF : crcRaw [0xFF#8, 0xFF#8, 0xFF#8, 0xFF#8] = 0x00000000#32 := by
  decide +kernel

/-- Settles O16: UPDATE's one write, over the words of its row and their sums; appending a byte to a
message is that write; and the byte step keeps different old values apart. -/
theorem updateAbsorbsTheByte : Obligations.UpdateAbsorbsTheByte := by
  refine ⟨fun s d => exec_eq_setCrc (.update d) s,
    fun s w hw => step_of_decode (decode_of_updateMask hw) s,
    fun s d => step_of_decode (decode_update_sum d) s, by decide, by decide, by decide,
    fun s => ?_, fun s d m hs => ?_, fun d => ?_, fun _ => exec_idle_or_loads⟩
  · rw [← crcRaw_four_FF]
    exact runWords_msgiWords s [0xFF#8, 0xFF#8, 0xFF#8, 0xFF#8]
  · rw [exec_eq_setCrc, crcAfter, hs, crcRaw_append_singleton]
    rfl
  · exact (bytestep_left_injective d).ne (by decide)

/-! ### INIT (R58) -/

/-- Settles O17: INIT loads the seed, the empty message's raw value. -/
theorem initSeedsTheRegister : Obligations.InitSeedsTheRegister := by
  refine ⟨exec_eq_setCrc .init, fun s w hw => step_of_decode (decode_of_initMask hw) s,
    fun s w v hw hv => ?_, fun s t h => ?_⟩
  · exact runWords_seed_twice rfl (decode_of_initMask hw) (decode_of_initMask hv) s
  · obtain rfl := (exec_next_iff .init s t).mp h
    exact ⟨BitVec.xor_self, rfl⟩

/-! ### START (R59) -/

/-- START is INIT and UPDATE in one step. -/
theorem runWords_init_update (s : State) (d : Byte) :
    runWords s [encode .init, encode (.update d)] = runWords s [encode (.start d)] := by
  simp only [runWords_cons, decode_encode]
  rfl

/-- Settles O18: START's one write, over the words of its row and their sums; it seeds, so twice is
once. -/
theorem startSeedsThenAbsorbs : Obligations.StartSeedsThenAbsorbs := by
  have hexample : bytestep Config.init 0x31#8 = 0x7C231048#32 := by decide
  refine ⟨fun s d => exec_eq_setCrc (.start d) s,
    fun s w hw => step_of_decode (decode_of_startMask hw) s,
    fun s d => step_of_decode (decode_start_sum d) s, runWords_init_update,
    fun s d => runWords_seed_twice rfl (decode_encode (.start d)) (decode_encode _) s, by decide,
    by decide, fun s t h => ?_⟩
  obtain rfl := (exec_next_iff (.start 0x31#8) s t).mp h
  rw [crcAfter, hexample]
  exact ⟨rfl, show 0x7C231048#32 ^^^ Config.xorout = 0x83DCEFB7#32 by decide⟩

/-! ### The outputs (R60, R61) -/

/-- Settles O24: XOR with all ones is the complement, bit by bit. -/
theorem crcOutInvertsEveryBit : Obligations.CrcOutInvertsEveryBit := by
  intro s
  have hnot : s.out.crcOut = ~~~s.crc := BitVec.xor_allOnes
  refine ⟨rfl, hnot, fun i hi => ?_⟩
  rw [hnot, BitVec.getLsbD_not, decide_eq_true hi, Bool.true_and]

/-- The consumer's assembly undoes the split into wire bytes (R61). -/
theorem fromWire_wireByte (v : Crc) :
    fromWire (wireByte v 0) (wireByte v 1) (wireByte v 2) (wireByte v 3) = v := by
  have hjoin (start len : Nat) : v.extractLsb' (start + 8) len ++ v.extractLsb' start 8 =
      v.extractLsb' start (len + 8) :=
    BitVec.extractLsb'_append_extractLsb'_eq_extractLsb' rfl
  show v.extractLsb' 24 8 ++ v.extractLsb' 16 8 ++ v.extractLsb' 8 8 ++ v.extractLsb' 0 8 = v
  rw [hjoin 16 8, hjoin 8 16, hjoin 0 24, BitVec.extractLsb'_eq_self]

/-- Settles O25: each output byte is a slice of `crc_out`, and the four adjoin. -/
theorem wireBytesAreBigEndian : Obligations.WireBytesAreBigEndian :=
  ⟨fun s => ⟨rfl, rfl, rfl, rfl, rfl, fromWire_wireByte s.out.crcOut⟩, by decide, by decide⟩

/-! ### The message of a run (R62) -/

/-- The first word's byte, if it absorbs one, comes first. -/
theorem absorbed_cons (w : InputWord) (ws : List InputWord) :
    absorbed (w :: ws) = (absorbedByte (decode w)).toList ++ absorbed ws := by
  simp only [absorbed, List.filterMap_eq_flatMap_toList, List.flatMap_cons]

/-- A command that does not seed folds in the byte it absorbs, if any. -/
theorem crcAfter_of_not_seeds {i : Instr} (hi : seeds i = false) (c : Crc) :
    crcAfter i c = crcFrom c (absorbedByte i).toList := by
  cases i with
  | reset => cases hi
  | idle => rfl
  | update d => rfl
  | init => cases hi
  | start d => cases hi

/-- With no seed among the words, a run folds the bytes they absorb. -/
theorem foldl_nextCrc_of_noSeed {ws : List InputWord} (h : noSeed ws = true) (c : Crc) :
    ws.foldl nextCrc c = crcFrom c (absorbed ws) := by
  induction ws generalizing c with
  | nil => rfl
  | cons w ws ih =>
    rw [noSeed, List.all_cons, Bool.and_eq_true, Bool.not_eq_true'] at h
    obtain ⟨hw, hws⟩ := h
    rw [List.foldl_cons, ih hws, nextCrc_eq_crcAfter_decode, crcAfter_of_not_seeds hw, absorbed_cons,
      crcFrom_append]

/-- A run whose last seed leaves the raw value of `m` ends with that of `m` and the bytes absorbed
after the seed. -/
theorem runWords_of_lastSeed {w : InputWord} {i : Instr} {after : List InputWord} (m : Message)
    (hdecode : decode w = i) (hi : seeds i = true) (hm : ∀ c, crcAfter i c = crcRaw m)
    (hafter : noSeed after = true) (s : State) (before : List InputWord) :
    runWords s (before ++ w :: after) = .next (s.setCrc (crcRaw (m ++ absorbed after))) := by
  rw [runWords_append_of_seeds (hdecode ▸ hi), runWords_eq_setCrc_foldl, List.foldl_cons,
    nextCrc_eq_crcAfter_decode, hdecode, hm, foldl_nextCrc_of_noSeed hafter, crcRaw_append]

/-- Settles O45: START leaves the raw value of its one byte, INIT and RESET that of the empty
message. -/
theorem traceCorrespondence : Obligations.TraceCorrespondence := by
  refine ⟨fun s before after w b0 hw hafter => ?_, fun s before after w hw hafter => ?_⟩
  · exact ⟨_, runWords_of_lastSeed [b0] hw rfl (fun _ => rfl) hafter s before, rfl, rfl, rfl⟩
  · obtain hw | hw := hw
    · exact ⟨_, runWords_of_lastSeed [] hw rfl (fun _ => rfl) hafter s before, rfl, rfl, rfl⟩
    · exact ⟨_, runWords_of_lastSeed [] hw rfl (fun _ => rfl) hafter s before, rfl, rfl, rfl⟩

/-! ### Results within a message (R64) -/

/-- The first words of a message are the words of its first bytes. -/
theorem take_msgWords (m : Message) {k : Nat} (hk : 1 ≤ k) :
    (msgWords m).take k = msgWords (m.take k) := by
  obtain ⟨j, rfl⟩ := Nat.exists_eq_add_of_le' hk
  cases m with
  | nil => simp [msgWords]
  | cons b bs => simp [msgWords]

/-- Settles O46: the first words are a message of their own, and the remaining words complete the run of
the whole message. -/
theorem prefixResults : Obligations.PrefixResults := by
  refine ⟨fun s m k hk _ => ?_, by decide +kernel⟩
  have hfirst : runWords s ((msgWords m).take k) = .next (s.setCrc (crcRaw (m.take k))) := by
    rw [take_msgWords m hk, runWords_msgWords]
  have hrest := runWords_append hfirst ((msgWords m).drop k)
  rw [List.take_append_drop, runWords_msgWords] at hrest
  exact ⟨_, hfirst, rfl, _, hrest.symm, rfl⟩

end Sys2Proof.Machine

/-! PROOFS. The printed table, the table form and the table's checks (spec 42_crc_table.md): an entry is
a byte step from zero, so it is linear in its index, and its top byte alone gives the index back. -/

namespace Sys2Proof.Machine

/-- An entry is the byte step from zero (R65). -/
theorem tableEntry_eq_bytestep_zero (n : Byte) : tableEntry n = bytestep 0x00000000#32 n := by
  rw [tableEntry, bytestep, BitVec.zero_xor]

/-- R67 prints eight blocks of 32 entries. -/
theorem printedEntries_length : printedEntries.length = 256 := by
  simp only [printedEntries, List.length_append]
  rfl

/-- Settles O39: the printed entries are the computed ones, and the eight steps of entry 1 are
closed. -/
theorem printedTableIsTheTable : Obligations.PrintedTableIsTheTable :=
  ⟨printedEntries_length, printedEntry_eq_tableEntry, tableEntry_eq_bytestep_zero, by decide,
    by decide, by decide⟩

/-- Settles O40: eight bit steps split at the low byte, and the two worked examples. -/
theorem tableFormAgrees : Obligations.TableFormAgrees :=
  ⟨bytestep_eq_bytestepTable, fun _ _ => rfl, by decide, by decide, by decide, by decide⟩

/-! ### The checks of R69 -/

/-- Linearity, check (c): an entry inherits it from the bit step. -/
theorem tableEntry_xor (a b : Byte) : tableEntry (a ^^^ b) = tableEntry a ^^^ tableEntry b := by
  rw [tableEntry, zext32_xor, bitstep_iterate_xor, tableEntry, tableEntry]

/-- A value with a clear top byte is eight bit steps of itself shifted up by a byte. -/
theorem bitstep_iterate_eight_shiftLeft {r : Crc} (h : r.extractLsb' 24 8 = 0#8) :
    bitstep^[8] (r <<< 8) = r := by
  have hclear : ∀ i < 8, (r <<< 8).getLsbD i = false := by
    intro i hi
    simp [hi]
  have htop (i : Nat) (hi : 24 ≤ i) (h32 : i < 32) : r.getLsbD i = false := by
    have hbit := congrArg (fun v => v.getLsbD (i - 24)) h
    simpa [Nat.add_sub_cancel' hi, show i - 24 < 8 by omega] using hbit
  rw [bitstep_iterate_of_low_clear hclear]
  refine BitVec.eq_of_getLsbD_eq fun i hi => ?_
  by_cases h24 : i < 24
  · simp [show 8 + i < 32 by omega, BitVec.getLsbD_eq_getElem hi]
  · simp [show ¬ 8 + i < 32 by omega, htop i (Nat.le_of_not_lt h24) hi]

/-- Only entry 0 has a clear top byte: such an entry comes from itself shifted up, whose low byte is
clear, and eight bit steps are injective. -/
theorem eq_zero_of_tableEntry_topByte_eq_zero {n : Byte}
    (h : (tableEntry n).extractLsb' 24 8 = 0#8) : n = 0#8 := by
  have hindex : zext32 n = tableEntry n <<< 8 :=
    bitstep_injective.iterate 8 (bitstep_iterate_eight_shiftLeft h).symm
  refine BitVec.eq_of_getLsbD_eq fun i hi => ?_
  rw [← zext32_getLsbD, hindex]
  simp [hi]

/-- Entries with equal top bytes differ by an entry whose top byte is clear. -/
theorem tableEntry_topByte_injective :
    Function.Injective (fun n : Byte => (tableEntry n).extractLsb' 24 8) := by
  intro a b h
  have hdiff : (tableEntry (a ^^^ b)).extractLsb' 24 8 = 0#8 := by
    rw [tableEntry_xor, BitVec.extractLsb'_xor]
    exact BitVec.xor_eq_zero_iff.mpr h
  exact BitVec.xor_eq_zero_iff.mp (eq_zero_of_tableEntry_topByte_eq_zero hdiff)

/-- Entries that differ in the top byte differ. -/
theorem tableEntry_injective : Function.Injective tableEntry :=
  Function.Injective.of_comp (f := fun v : Crc => v.extractLsb' 24 8) tableEntry_topByte_injective

/-- Settles O41: closed entries, linearity, and the top byte that gives the index back. -/
theorem tableChecks : Obligations.TableChecks :=
  ⟨by decide, by decide, tableEntry_xor, by decide, tableEntry_injective,
    tableEntry_topByte_injective⟩

end Sys2Proof.Machine

/-! PROOFS. Exceptions and priorities (spec 60_exceptions.md): no run of any length stops, control bits
set together act in the order of the decode, and the consumer's check compares with `crc32` of the
message presented. -/

namespace Sys2Proof.Machine

open Sys2Proof.Safety Sys2Proof.InputWord

/-! ### Nothing is raised (R70) -/

theorem goesOn_of_state (s : State) : goesOn s := ⟨_, step_eq_setCrc s⟩

/-- Where every step goes on, so does a run of any length. -/
theorem exists_run_next (k : Nat) (s : State) : ∃ t, run k s = .next t := by
  induction k generalizing s with
  | zero => exact ⟨s, rfl⟩
  | succ k ih =>
    obtain ⟨u, hu⟩ := goesOn_of_state s
    obtain ⟨t, ht⟩ := ih u
    refine ⟨t, ?_⟩
    rw [run, hu]
    exact ht

/-- Settles O12: a command is one write of the register, a run is such writes by induction on its
length, and the type of fault causes has no constructor. -/
theorem nothingIsEverRaised : Obligations.NothingIsEverRaised :=
  ⟨fun i s => ⟨_, exec_eq_setCrc i s⟩, goesOn_of_state, exists_run_next,
    fun _ hn => ⟨_, decodeNat_of_lt hn⟩, fun f => nomatch f⟩

/-! ### Control bits set together (R73) -/

/-- Settles O19: the decode of a word's fields tests `rst` first, then `init` with `valid`, and the step
is the decoded command's write. -/
theorem controlBitPriority : Obligations.ControlBitPriority := fun s init valid data =>
  ⟨step_of_decode (decode_ofFields_reset init valid data) s,
    step_of_decode (decode_ofFields_start data) s, step_of_decode (decode_ofFields_init data) s,
    step_of_decode (decode_ofFields_update data) s, step_of_decode (decode_ofFields_idle data) s⟩

/-! ### The consumer's check (R71) -/

theorem check_eq_true_iff (stored : Crc) (s : State) :
    check stored s = true ↔ stored = s.out.crcOut := decide_eq_true_iff

/-- Over a message's raw value the consumer compares with the message's `crc32`. -/
theorem check_setCrc_crcRaw (stored : Crc) (s : State) (m : Message) :
    check stored (s.setCrc (crcRaw m)) = decide (stored = crc32 m) := by
  rw [check, State.out_crcOut_setCrc_crcRaw]

/-- After a message, a stored value that is not its `crc32` is rejected. -/
theorem runWords_msgWords_check_false {stored : Crc} {m : Message} (h : stored ≠ crc32 m)
    (s : State) : ∃ t, runWords s (msgWords m) = .next t ∧ check stored t = false :=
  ⟨_, runWords_msgWords s m, (check_setCrc_crcRaw stored s m).trans (decide_eq_false h)⟩

/-- Settles O37: the check compares with `crc32` of the message presented; a flipped bit of the message
changes that value, and a flipped bit of the stored value misses it. -/
theorem consumerCheckRejectsOneFlip : Obligations.ConsumerCheckRejectsOneFlip := by
  refine fun s m => ⟨⟨_, runWords_msgWords s m, ?_, fun stored => check_eq_true_iff stored _⟩,
    fun k i hk hi => ?_, fun j hj => ?_⟩
  · exact (check_setCrc_crcRaw (crc32 m) s m).trans (decide_eq_true rfl)
  · exact runWords_msgWords_check_false (crc32_flipBit_ne hk hi).symm s
  · exact runWords_msgWords_check_false (xor_twoPow_ne_self (crc32 m) hj) s

end Sys2Proof.Machine

/-! PROOFS. Reset, start-up and the host's hazards (spec 70_reset_and_hazards.md): one seeding word
erases what the register held, UPDATE words after a message join it, IDLE words leave its result. -/

namespace Sys2Proof.Machine

open Sys2Proof.Safety

/-! ### Reset and start-up (R80 to R82) -/

/-- From a seeding word on, a run starts from one value, whatever the register held. -/
theorem runWords_cons_of_seeds {w : InputWord} (hw : seeds (decode w) = true) (c : Crc) (s : State)
    (ws : List InputWord) :
    runWords s (w :: ws) = .next (s.setCrc (ws.foldl nextCrc (crcAfter (decode w) c))) := by
  rw [runWords_eq_setCrc_foldl, List.foldl_cons, nextCrc_eq_crcAfter_decode,
    crcAfter_eq_of_seeds hw s.crc c]

/-- Settles O22: a step is one write of the register, and a seeding word does not read it. -/
theorem seedErasesPowerOnValue : Obligations.SeedErasesPowerOnValue :=
  ⟨fun v _ => ⟨_, step_of_decode rfl (State.powerOn v)⟩,
    fun _ ws hw => ⟨_, fun s => runWords_cons_of_seeds hw Config.init s ws⟩⟩

/-- The last word with `rst` set erases the others, so holding `rst` is one reset. -/
theorem runWords_of_rst {ws : List InputWord} (hne : ws ≠ []) (h : ∀ w ∈ ws, w.getLsbD 10 = true)
    (s : State) : runWords s ws = .next (s.setCrc Config.resetValue) := by
  obtain ⟨before, w, rfl⟩ := (List.eq_nil_or_concat' ws).resolve_left hne
  have hw : decode w = .reset := decode_of_rst (h w (by simp))
  rw [runWords_append_of_seeds (by rw [hw]; rfl), runWords_cons, hw]
  rfl

/-- Settles O23: the words with `rst` set leave the reset value, and the run of one more word goes
on from it. -/
theorem holdingResetKeepsTheResetState : Obligations.HoldingResetKeepsTheResetState := by
  intro s ws hne h
  have hreset := runWords_of_rst hne h s
  refine ⟨hreset, fun v => ?_⟩
  rw [runWords_append hreset, runWords_eq_setCrc_foldl]
  rfl

/-! ### Messages joined and results standing (R84, R86) -/

/-- UPDATE words after a message's words absorb their bytes into the same message. -/
theorem runWords_msgWords_updates (s : State) (a b : Message) :
    runWords s (msgWords a ++ b.map fun d => encode (.update d)) =
      .next (s.setCrc (crcRaw (a ++ b))) := by
  rw [runWords_eq_setCrc_foldl, List.foldl_append, foldl_nextCrc_msgWords, foldl_nextCrc_updates,
    crcRaw_append]

/-- Settles O49: the run of both lists leaves the raw value of the joined message; the examples are
computed. -/
theorem missingSeedJoinsMessages : Obligations.MissingSeedJoinsMessages :=
  ⟨fun s a b => ⟨_, runWords_msgWords_updates s a b, State.out_crcOut_setCrc_crcRaw s (a ++ b)⟩,
    by decide, by decide +kernel, by decide⟩

/-- IDLE words after a message's words leave what the message left. -/
theorem runWords_msgWords_idle {ws : List InputWord} (h : onlyIdle ws = true) (s : State)
    (m : Message) : runWords s (msgWords m ++ ws) = .next (s.setCrc (crcRaw m)) := by
  have hidle : ∀ w ∈ ws, decode w = .idle := by simpa [onlyIdle] using h
  rw [runWords_append (runWords_msgWords s m), runWords_of_idle hidle]

/-- The last word of a message of two or more bytes is its last byte's UPDATE. -/
theorem dropLast_msgWords (c : Byte) (m : Message) (b : Byte) :
    (msgWords (c :: m ++ [b])).dropLast = msgWords (c :: m) := by
  have hlast : msgWords (c :: m ++ [b]) = msgWords (c :: m) ++ [encode (.update b)] := by
    simp [msgWords]
  rw [hlast, List.dropLast_concat]

/-- Settles O50: IDLE words leave the message's raw value, and all words of a message but the last
are the words of the message less its last byte. -/
theorem resultStandsInItsWindow : Obligations.ResultStandsInItsWindow := by
  refine ⟨fun s m ws h => ⟨_, runWords_msgWords_idle h s m, State.out_crcOut_setCrc_crcRaw s m⟩,
    fun s m b c => ⟨s.setCrc (crcRaw (c :: m)), ?_, State.out_crcOut_setCrc_crcRaw s (c :: m)⟩⟩
  rw [dropLast_msgWords, runWords_msgWords]

end Sys2Proof.Machine

/-! PROOFS. The step for which the state lists no word (the model's choice,
notes/assumptions/2.md). -/

namespace Sys2Proof.Machine

theorem State.sample_of_presented_nil {s : State} (h : s.presented = []) :
    s.sample = (Config.hostWord s.drawn, { s with drawn := s.drawn + 1 }) := by
  obtain ⟨w, ws, hlisted, -⟩ | ⟨-, hdrawn⟩ := s.sample_cases
  · exact absurd (h.symm.trans hlisted) (List.cons_ne_nil w ws).symm
  · exact hdrawn

/-- Settles O9: with no word listed, sampling draws a free word. -/
theorem stepWithoutWordDrawsFreeWord : Obligations.StepWithoutWordDrawsFreeWord := by
  intro s h
  rw [step, State.sample_of_presented_nil h]

end Sys2Proof.Machine
